-- ==== Sys2Proof/Word.lean ====
section
/-! DEFINITION. The word types of the block: the 80-bit command word (30_encoding.md R70), the 121-bit
frame store (20_memory.md R50) and the unsigned sample (42_sample_scheduler.md R140). -/

namespace Sys2Proof

/-- A command word `w`, format CMD80: exactly 80 bits, bit 0 least significant (R70). -/
abbrev Word := BitVec 80

/-- The contents of the frame store, 121 single-bit symbols in transmission order (R28, R120).
`frame[0]`, the element transmitted first, is the MOST significant bit, as the vectors V-FRM print it. -/
abbrev Frame := BitVec 121

/-- An unsigned sample value. Its bound `2 ^ SAMPLE_WIDTH` is a parameter (R6, R140), so it is a `Nat`
and the bound is a predicate (`ParamsValid`, Safety.lean). -/
abbrev Sample := Nat

end Sys2Proof
end

