-- ==== Sys2Proof/Syntax.lean ====
section
/-! DEFINITION. The operations of the block, one constructor per row of spec/opcode_table.json
(30_encoding.md R71). -/

namespace Sys2Proof

/-- The eight operations (R71). Operands are the unsigned numbers an issuer names; the width each one
has in a command word is checked by `Instr.wellFormed`. A wider operand is reduced to its field width
where it is used (R73, R122). -/
inductive Instr where
  /-- `ENC_POS d`: `encode_position_parity(d)`, `d` of 21 bits (40_bch_encoder.md R101). -/
  | encPos (d : Nat)
  /-- `ENC_ID d`: `encode_id_parity(d)`, `d` of 12 bits (40_bch_encoder.md R106). -/
  | encId (d : Nat)
  /-- `BUILD cc, aid, pos, off`: `build_frame`, of 10, 24, 21 and 20 bits (41_frame_builder.md R121). -/
  | build (cc aid pos off : Nat)
  /-- `CFG_SINK`: configure the sample sink (43_control_interface.md R180). -/
  | cfgSink
  /-- `CFG_TICK rate`: the tick source's `configure(rate_hz)`, `rate` of 18 bits (43_control_interface.md R181). -/
  | cfgTick (rate : Nat)
  /-- `ENABLE`: the tick source's `enable()` (43_control_interface.md R182). -/
  | enable
  /-- `TICK`: one invocation of the tick handler (42_sample_scheduler.md R142). -/
  | tick
  /-- `DBG_READ`: read the debug probe (43_control_interface.md R183). -/
  | dbgRead
  deriving DecidableEq, Repr

end Sys2Proof
end

