-- ==== Sys2Proof/WellFormed.lean ====
section
/-! DEFINITION. Which operations a command word can hold (30_encoding.md R72, R73): every operand fits
its field. -/

namespace Sys2Proof

/-- Every operand is below 2 to its field width (R72), so that the command word holds all of it
("A value wider than its field cannot be encoded", R73). -/
def Instr.wellFormed : Instr → Bool
  | .encPos d => decide (d < 2 ^ 21)
  | .encId d => decide (d < 2 ^ 12)
  | .build cc aid pos off =>
      decide (cc < 2 ^ 10) && decide (aid < 2 ^ 24) && decide (pos < 2 ^ 21) && decide (off < 2 ^ 20)
  | .cfgSink => true
  | .cfgTick rate => decide (rate < 2 ^ 18)
  | .enable => true
  | .tick => true
  | .dbgRead => true

end Sys2Proof
end

