-- ==== Sys2Proof/Decode.lean ====
section
/-! DEFINITION. The decoder and the encoder of the command word (30_encoding.md R70 to R74). -/

namespace Sys2Proof

/-- `trunc_N(v)`: keep the low `n` bits (00_scope.md R9). -/
def trunc (n v : Nat) : Nat := v % 2 ^ n

/-- `v[hi:lo]`: bits `hi` down to `lo` of `v`, read as an unsigned number (00_scope.md R8). -/
def bitSlice (v hi lo : Nat) : Nat := v / 2 ^ lo % 2 ^ (hi + 1 - lo)

/-- The field `w[hi:lo]` of a command word (30_encoding.md R72, R73: unsigned, zero-extended). -/
def Word.field (w : Word) (hi lo : Nat) : Nat := bitSlice w.toNat hi lo

/-- Why a command word is illegal (30_encoding.md R74). -/
inductive IllegalWord where
  /-- `op` is 0x0 or one of 0x9 to 0xF. -/
  | reservedOp (op : Nat)
  /-- A reserved payload bit of the operation with this `op` is 1. -/
  | reservedPayload (op : Nat)
  deriving DecidableEq, Repr

/-- The decoder's answer: "an operation or the illegal verdict for every 80-bit word" (30_encoding.md R74). -/
inductive Decoded where
  | op (i : Instr)
  | illegal (why : IllegalWord)
  deriving DecidableEq, Repr

/-- `i` where the reserved payload field is 0, the illegal verdict otherwise (R74). -/
def whenReservedZero (reserved op : Nat) (i : Instr) : Decoded :=
  if reserved = 0 then .op i else .illegal (.reservedPayload op)

/-- `decode(w)`, total on every 80-bit word (30_encoding.md R74, with the fields of R72). -/
def decode (w : Word) : Decoded :=
  match w.field 3 0 with
  | 0x1 => whenReservedZero (w.field 79 25) 0x1 (.encPos (w.field 24 4))
  | 0x2 => whenReservedZero (w.field 79 16) 0x2 (.encId (w.field 15 4))
  | 0x3 => whenReservedZero (w.field 79 79) 0x3
      (.build (w.field 13 4) (w.field 37 14) (w.field 58 38) (w.field 78 59))
  | 0x4 => whenReservedZero (w.field 79 4) 0x4 .cfgSink
  | 0x5 => whenReservedZero (w.field 79 22) 0x5 (.cfgTick (w.field 21 4))
  | 0x6 => whenReservedZero (w.field 79 4) 0x6 .enable
  | 0x7 => whenReservedZero (w.field 79 4) 0x7 .tick
  | 0x8 => whenReservedZero (w.field 79 4) 0x8 .dbgRead
  | op => .illegal (.reservedOp op)

/-- An `n`-bit field placed with its least significant bit at bit `lo`; a wider value keeps its low `n`
bits (30_encoding.md R73). -/
def placeField (n lo v : Nat) : Nat := trunc n v * 2 ^ lo

/-- The command word of an operation (30_encoding.md R71 opcodes, R72 payload layouts, R73 truncation). -/
def encode : Instr → Word
  | .encPos d => BitVec.ofNat 80 (0x1 + placeField 21 4 d)
  | .encId d => BitVec.ofNat 80 (0x2 + placeField 12 4 d)
  | .build cc aid pos off =>
      BitVec.ofNat 80 (0x3 + placeField 10 4 cc + placeField 24 14 aid + placeField 21 38 pos + placeField 20 59 off)
  | .cfgSink => BitVec.ofNat 80 0x4
  | .cfgTick rate => BitVec.ofNat 80 (0x5 + placeField 18 4 rate)
  | .enable => BitVec.ofNat 80 0x6
  | .tick => BitVec.ofNat 80 0x7
  | .dbgRead => BitVec.ofNat 80 0x8

/-- The same operation with every operand reduced to its field width (30_encoding.md R73, R75). -/
def truncateOperands : Instr → Instr
  | .encPos d => .encPos (trunc 21 d)
  | .encId d => .encId (trunc 12 d)
  | .build cc aid pos off => .build (trunc 10 cc) (trunc 24 aid) (trunc 21 pos) (trunc 20 off)
  | .cfgSink => .cfgSink
  | .cfgTick rate => .cfgTick (trunc 18 rate)
  | .enable => .enable
  | .tick => .tick
  | .dbgRead => .dbgRead

/-- The operation decoded from the command word whose low `nbits` bits are those of `w` and whose other
bits are 0, numbered as spec/opcode_table.json numbers them (one word of 80 bits, R70). -/
def decodeTableWord (nbits w : Nat) : Option Instr :=
  match decode (BitVec.ofNat 80 (trunc nbits w)) with
  | .op i => some i
  | .illegal _ => none

end Sys2Proof
end

