-- ==== Sys2Proof/Config.lean ====
section
/-! DEFINITION. The parameters of the block and its design constants (00_scope.md R6, R7).
The OPEN parameters (92_eei_decisions.md D3, D4) are opaque: nothing in Lean can evaluate them. -/

namespace Sys2Proof

/-- The parameters of the block (R6), which the spec says a model takes as arguments. They are
synthesis-time constants: no operation writes them (10_state.md R31, R35). A `State` carries them, so a
statement about every state is a statement about every configuration (assumption 1). -/
structure Params where
  /-- `GEN_POLY`, the generator polynomial constant (40_bch_encoder.md R107). -/
  genPoly : Nat
  /-- `GUARD_SYMBOLS`, the configured guard-symbol count (42_sample_scheduler.md R149). -/
  guardSymbols : Nat
  /-- `SAMPLE_WIDTH`, bits per sample (R6, D4). -/
  sampleWidth : Nat
  /-- `CARRIER_SAMPLES[0..4]` (R140). -/
  carrierSamples : Vector Sample 5
  /-- `SYMBOL_SAMPLES[0..1][0..4]`; row `s` is the waveform of a frame bit of value `s` (R140). -/
  symbolSamples : Vector (Vector Sample 5) 2
  deriving DecidableEq, Repr

namespace Config

/-- `CARRIER_LEN`: samples per carrier cycle (R6). -/
abbrev carrierLen : Nat := 5
/-- `FRAME_BITS` (R6, R120). -/
abbrev frameBits : Nat := 121
/-- `SAMPLE_RATE_HZ` (R6). -/
abbrev sampleRateHz : Nat := 200000
/-- `PREAMBLE_MS` (R6). -/
abbrev preambleMs : Nat := 160
/-- `SYMBOL_RATE_HZ` (R6). -/
abbrev symbolRateHz : Nat := 400
/-- `PREAMBLE_TICKS`: 160 ms × 200,000 Hz / 1000 (R6, R147). -/
abbrev preambleTicks : Nat := 32000
/-- `TICKS_PER_SYMBOL`: sample_rate / symbol_rate (R6, R148). -/
abbrev ticksPerSymbol : Nat := 500
/-- `FRAME_SYNC`: the fixed 9-bit pattern `0b110101100` (R6, R124). -/
abbrev frameSync : BitVec 9 := 0b110101100#9

/-- The spec's default `GEN_POLY` (R107, D1), the value of the reset configuration (assumption 2). -/
abbrev defaultGenPoly : Nat := 0x769
/-- The spec's default `GUARD_SYMBOLS` (R6, D2), the value of the reset configuration (assumption 3). -/
abbrev defaultGuardSymbols : Nat := 23

/-- FREE VALUE: `SAMPLE_WIDTH - 1` of the implementation (D4: `SAMPLE_WIDTH >= 1`, OPEN; assumption 4). -/
opaque sampleWidthLessOne : Nat
/-- FREE VALUE: entry `p` of the carrier table before its reduction to SAMPLE_WIDTH bits (D3, OPEN; assumption 4). -/
opaque carrierEntry : Nat → Nat
/-- FREE VALUE: entry `(s, p)` of the symbol table before its reduction (D3, OPEN; assumption 4). -/
opaque symbolEntry : Nat → Nat → Nat

/-- `SAMPLE_WIDTH` of the implementation: some number that is at least 1 (D4). -/
def sampleWidth : Nat := sampleWidthLessOne + 1
/-- `CARRIER_SAMPLES[p]`: some value below `2 ^ SAMPLE_WIDTH` (R140). -/
def carrierSample (p : Nat) : Sample := carrierEntry p % 2 ^ sampleWidth
/-- `SYMBOL_SAMPLES[s][p]`: some value below `2 ^ SAMPLE_WIDTH` (R140). -/
def symbolSample (s p : Nat) : Sample := symbolEntry s p % 2 ^ sampleWidth

/-- The configuration `State.reset` carries: the spec's defaults where it gives one (D1, D2), free
values where it leaves the parameter OPEN (D3, D4). -/
def params : Params where
  genPoly := defaultGenPoly
  guardSymbols := defaultGuardSymbols
  sampleWidth := sampleWidth
  carrierSamples := #v[carrierSample 0, carrierSample 1, carrierSample 2, carrierSample 3, carrierSample 4]
  symbolSamples :=
    #v[#v[symbolSample 0 0, symbolSample 0 1, symbolSample 0 2, symbolSample 0 3, symbolSample 0 4],
       #v[symbolSample 1 0, symbolSample 1 1, symbolSample 1 2, symbolSample 1 3, symbolSample 1 4]]

end Config

end Sys2Proof
end

