-- ==== Sys2Proof/Machine/State.lean ====
section
/-! DEFINITION. Everything the spec gives the block to hold (10_state.md section 1), the reasons a step
can stop, and the state after reset (70_reset_and_hazards.md R230). -/

namespace Sys2Proof.Machine

/-- `macro_phase`: the guard interval is part of Data (10_state.md R21). -/
inductive MacroPhase where
  | preamble
  | data
  deriving DecidableEq, Repr

/-- The lifecycle register's values, in the order of the startup contract (10_state.md R29). -/
inductive Life where
  | reset
  | built
  | sinkReady
  | tickConfigured
  | running
  deriving DecidableEq, Repr

/-- The six fault codes (60_exceptions.md R201). -/
inductive FaultCode where
  /-- Code 1, raised by the decoder (30_encoding.md R74). -/
  | illegalCommand
  /-- Code 2, raised by BUILD, CFG_SINK, CFG_TICK and ENABLE out of the startup order. -/
  | sequence
  /-- Code 3, raised by TICK when `life != Running`. -/
  | tickBeforeEnable
  /-- Code 4, raised by CFG_TICK for a rate other than 200000. -/
  | badConfig
  /-- Code 5: no step of the untimed model raises it (60_exceptions.md R204). -/
  | deadlineMiss
  /-- Code 6, raised by DBG_READ when `dbg = none`. -/
  | debugNoValue
  deriving DecidableEq, Repr

/-- What a fault records: its code and the command word that raised it (60_exceptions.md R201). -/
structure FaultRecord where
  code : FaultCode
  word : Word
  deriving DecidableEq, Repr

/-- One call `write(sample, bit_width)` of the sample sink (43_control_interface.md R184). -/
structure SinkCall where
  sample : Sample
  bitWidth : Nat
  deriving DecidableEq, Repr

/-- A value an operation returns to the host (00_scope.md R9 `return v`; 10_state.md R37). -/
inductive HostResult where
  /-- The 10-bit result of ENC_POS (40_bch_encoder.md R101). -/
  | positionParity (p : BitVec 10)
  /-- The 12-bit result of ENC_ID (40_bch_encoder.md R106). -/
  | idParity (q : BitVec 12)
  /-- The sample DBG_READ returns (43_control_interface.md R183). -/
  | debugSample (v : Sample)
  deriving DecidableEq, Repr

/-- `TransmitterState`, "owned exclusively by the Sample Scheduler" (10_state.md R20 to R27). -/
structure TransmitterState where
  /-- R21. -/
  macroPhase : MacroPhase
  /-- R22: 3 bits, 0..4. -/
  carrierPosition : BitVec 3
  /-- R23: 15 bits, 0..31999 between ticks. -/
  preambleTickCount : BitVec 15
  /-- R24: 9 bits, 0..499 between ticks. -/
  symbolTickCount : BitVec 9
  /-- R25: 7 bits, 0..121. -/
  bitIndex : BitVec 7
  /-- R26: `GUARD_WIDTH` bits, 0..GUARD_SYMBOLS-1 between ticks. The width depends on the parameter, so
  the register is a `Nat` that its one write reduces to `GUARD_WIDTH` bits. -/
  guardSymbolCount : Nat
  deriving DecidableEq, Repr

/-- The state of the block (10_state.md section 1), with the observations the spec makes of it (R37)
and the command words that stand before it (20_memory.md R58: one total order of operations). -/
structure State where
  /-- The six scheduler registers (R21 to R26). -/
  transmitter : TransmitterState
  /-- The frame store; `none` is the spec's own "no value (unwritten)" (R28, 70_reset_and_hazards.md R230). -/
  frame : Option Frame
  /-- The lifecycle register (R29). -/
  life : Life
  /-- The debug mirror; `none` is the spec's own "holds no value" (R30, R230). -/
  dbg : Option Sample
  /-- The fault register (60_exceptions.md R201, R202). -/
  fault : Option FaultRecord
  /-- The waveform ROMs and the other synthesis-time parameters (R31, R35; assumption 1). -/
  params : Params
  /-- `out`: the sink calls made, the oldest first (R37, 43_control_interface.md R184). -/
  out : List SinkCall
  /-- The values returned to the host, the oldest first (R37; the model's own record, assumption 8). -/
  results : List HostResult
  /-- The command words not yet taken, the next one first (R33, R58; assumption 5). -/
  pending : List Word
  deriving DecidableEq, Repr

/-- Why the MODEL stops. The spec's own faults are no stops: they are recorded in `State.fault` and the
step answers a next state (60_exceptions.md R201, R202). -/
inductive Fault where
  /-- Raised by TICK: the frame store is read in Data before BUILD has written it. No run reaches it
  (10_state.md R28). Safe: the model stops where the spec says no rule reads (assumption 10). -/
  | frameUnwritten
  /-- Raised by TICK: a waveform table is read at an index above 4. No run reaches it (20_memory.md R50).
  Safe: the index does not exist (assumption 10). -/
  | romIndexOutOfRange
  deriving DecidableEq, Repr

/-- Why the model gives a step no meaning. -/
inductive Refusal where
  /-- The instruction with this mnemonic has no meaning yet. Raised by no arm of this model. Safe. -/
  | notModelled (mnemonic : String)
  /-- Raised by every step: `GEN_POLY` is outside 0x400..0x7FF, and "a model given any other value refuses
  the configuration" (40_bch_encoder.md R107). Safe. -/
  | genPolyOutOfRange
  /-- Raised by every step: `GUARD_SYMBOLS = 0`, and "a model refuses a configuration with GUARD_SYMBOLS = 0"
  (42_sample_scheduler.md R149). Safe. -/
  | guardSymbolsZero
  deriving DecidableEq, Repr

/-- The scheduler registers after reset (70_reset_and_hazards.md R230, D6). -/
def TransmitterState.reset : TransmitterState where
  macroPhase := .preamble
  carrierPosition := 0#3
  preambleTickCount := 0#15
  symbolTickCount := 0#9
  bitIndex := 0#7
  guardSymbolCount := 0

/-- The state after reset of a block built with the parameters `p` (70_reset_and_hazards.md R230). -/
def State.resetWith (p : Params) : State where
  transmitter := TransmitterState.reset
  frame := none
  life := .reset
  dbg := none
  fault := none
  params := p
  out := []
  results := []
  pending := []

/-- The state after reset (70_reset_and_hazards.md R230), with the parameters of Config. -/
def State.reset : State := State.resetWith Config.params

end Sys2Proof.Machine
end

