-- ==== Sys2Proof/Machine/Ops.lean ====
section
/-! DEFINITION. The named operations over the state: the pseudocode primitives of 00_scope.md R9, the
raising of a fault (60_exceptions.md R201, R202), and how the next command word comes to the block. -/

namespace Sys2Proof.Machine

/-- The answer of a step over this state. -/
abbrev Answer := Host.Outcome State Fault Refusal

/-! ### One update per piece of state -/

/-- `x <- v` for the scheduler registers (00_scope.md R9). -/
def State.setTransmitter (t : TransmitterState) (s : State) : State := { s with transmitter := t }
/-- `FrameWrite(F)`: all 121 bits at once (20_memory.md R51). -/
def State.frameWrite (f : Frame) (s : State) : State := { s with frame := some f }
/-- `life <- l` (10_state.md R29). -/
def State.setLife (l : Life) (s : State) : State := { s with life := l }
/-- `dbg <- v` (10_state.md R30). -/
def State.setDbg (v : Sample) (s : State) : State := { s with dbg := some v }
/-- `SinkWrite(v, w)`: append the call to the output sequence (43_control_interface.md R184). -/
def State.sinkWrite (v : Sample) (w : Nat) (s : State) : State := { s with out := s.out ++ [⟨v, w⟩] }
/-- `return v`: hand a value to the host (00_scope.md R9). -/
def State.returnToHost (r : HostResult) (s : State) : State := { s with results := s.results ++ [r] }
/-- Take the word that stands next; nothing to take leaves the state as it is. -/
def State.dropWord (s : State) : State := { s with pending := s.pending.tail }

/-! ### Taking a fault, the block's one kind of exception -/

/-- `raise Fault(code)`: record the code and the command word that raised it (60_exceptions.md R201).
Nothing else is saved, changed or vectored (60_exceptions.md R203), and nothing returns from it but
reset (R202). -/
def State.raiseFault (code : FaultCode) (w : Word) (s : State) : State :=
  { s with fault := some ⟨code, w⟩ }

/-- "Once `fault != none`, no operation executes" and nothing is checked (60_exceptions.md R202, R206). -/
def unlessFaulted (s : State) (k : State → Answer) : Answer :=
  match s.fault with
  | some _ => .next s
  | none => k s

/-- The lifecycle check of a startup operation: `life` must be `need`, else the operation raises
`Fault(SEQUENCE)` (60_exceptions.md R201). -/
def inSequence (need : Life) (i : Instr) (s : State) (k : State → Answer) : Answer :=
  if s.life = need then k s else .next (s.raiseFault .sequence (encode i))

/-- An illegal command word raises `Fault(ILLEGAL_COMMAND)`, "and nothing else happens" (30_encoding.md R74). -/
def illegalCommand (w : Word) (s : State) : Answer :=
  unlessFaulted s fun s => .next (s.raiseFault .illegalCommand w)

/-! ### The frame store and the waveform tables -/

/-- The frame element at transmission position `i` (00_scope.md R8); `i < 121`. -/
def frameBit (f : Frame) (i : Nat) : Bool := f.getMsbD i

/-- `FrameRead(i)` of the frame store: no value before FrameWrite (20_memory.md R52, 10_state.md R28). -/
def State.frameRead (s : State) (i : Nat) : Option Bool := s.frame.map fun f => frameBit f i

/-- `RomRead(CARRIER, 0, p)`; no value at an index the table does not have (20_memory.md R50, R53). -/
def carrierRead (q : Params) (p : Nat) : Option Sample := q.carrierSamples[p]?

/-- `RomRead(SYMBOL, s, p)`, the row named by a bit; no value at an index the table does not have
(20_memory.md R50, R53). -/
def symbolRead (q : Params) (b : Bool) (p : Nat) : Option Sample :=
  match q.symbolSamples[b.toNat]? with
  | some row => row[p]?
  | none => none

/-! ### The configuration and the next command word -/

/-- The refusal a configuration outside the parameters' ranges gets, if any (40_bch_encoder.md R107,
42_sample_scheduler.md R149). -/
def configRefusal (q : Params) : Option Refusal :=
  if q.genPoly < 0x400 ∨ 0x7FF < q.genPoly then some .genPolyOutOfRange
  else if q.guardSymbols = 0 then some .guardSymbolsZero
  else none

/-- The next operation in the total order (20_memory.md R58): the word that stands next; with none
standing, the tick source issues TICK exactly while `life = Running` (43_control_interface.md R185), and
in any other lifecycle state the block waits (70_reset_and_hazards.md R231). -/
def State.nextWord (s : State) : Option Word :=
  match s.pending with
  | w :: _ => some w
  | [] => if s.life = .running then some (encode .tick) else none

end Sys2Proof.Machine
end

