-- ==== Sys2Proof/Machine/Operands.lean ====
section
/-! DEFINITION. The operand forms: every operand is an unsigned number reduced to its field width
(30_encoding.md R72, R73; 41_frame_builder.md R122). -/

namespace Sys2Proof.Machine

/-- An operand of `n` bits: the low `n` bits of the number, never rejected (00_scope.md R9 `trunc_N`,
41_frame_builder.md R122). -/
def operand (n v : Nat) : BitVec n := BitVec.ofNat n v

/-- ENC_POS `d`, 21 bits (R72). -/
def positionData (d : Nat) : BitVec 21 := operand 21 d
/-- ENC_ID `d`, 12 bits (R72). -/
def idData (d : Nat) : BitVec 12 := operand 12 d
/-- BUILD `cc`, the CountryCode, 10 bits (R72, R122). -/
def countryCode (cc : Nat) : BitVec 10 := operand 10 cc
/-- BUILD `aid`, the AircraftId, 24 bits (R72, R122). -/
def aircraftId (aid : Nat) : BitVec 24 := operand 24 aid
/-- BUILD `pos`, the Position, 21 bits (R72, R122). -/
def position (pos : Nat) : BitVec 21 := operand 21 pos
/-- BUILD `off`, the PositionOffset, 20 bits (R72, R122). -/
def positionOffset (off : Nat) : BitVec 20 := operand 20 off
/-- CFG_TICK `rate`, 18 bits, in Hz (R72). -/
def tickRate (rate : Nat) : BitVec 18 := operand 18 rate

end Sys2Proof.Machine
end

