-- ==== Sys2Proof/Machine/Control.lean ====
section
/-! DEFINITION. The control interface: CFG_SINK, CFG_TICK, ENABLE and DBG_READ (43_control_interface.md). -/

namespace Sys2Proof.Machine

/-- CFG_SINK (43_control_interface.md R180). -/
def execCfgSink (s : State) : Answer :=
  unlessFaulted s fun s => inSequence .built .cfgSink s fun s => .next (s.setLife .sinkReady)

/-- CFG_TICK (43_control_interface.md R181): the lifecycle check comes before the rate check (60_exceptions.md R206). -/
def execCfgTick (rate : Nat) (s : State) : Answer :=
  unlessFaulted s fun s =>
    inSequence .sinkReady (.cfgTick rate) s fun s =>
      if (tickRate rate).toNat = Config.sampleRateHz then .next (s.setLife .tickConfigured)
      else .next (s.raiseFault .badConfig (encode (.cfgTick rate)))

/-- ENABLE (43_control_interface.md R182). -/
def execEnable (s : State) : Answer :=
  unlessFaulted s fun s => inSequence .tickConfigured .enable s fun s => .next (s.setLife .running)

/-- DBG_READ (43_control_interface.md R183): allowed in every lifecycle state. -/
def execDbgRead (s : State) : Answer :=
  unlessFaulted s fun s =>
    match s.dbg with
    | some v => .next (s.returnToHost (.debugSample v))
    | none => .next (s.raiseFault .debugNoValue (encode .dbgRead))

end Sys2Proof.Machine
end

