-- ==== Sys2Proof/Machine/Encoder.lean ====
section
/-! DEFINITION. The BCH parity encoder: ENC_POS and ENC_ID (40_bch_encoder.md). -/

namespace Sys2Proof.Machine

/-- `bch_step(r, b)` on a register of unbounded width, with the generator polynomial `g` (40_bch_encoder.md R100). -/
def bchStep (g r : Nat) (b : Bool) : Nat :=
  let msb := r.testBit 9
  let r' := (r <<< 1) ||| b.toNat
  if msb ^^ b then r' ^^^ g else r'

/-- `bch_step10(r, b)`, the same step on a 10-bit register (40_bch_encoder.md R102). -/
def bchStep10 (g : Nat) (r : BitVec 10) (b : Bool) : BitVec 10 :=
  let msb := r.getLsbD 9
  let r' := (r <<< 1) ||| BitVec.ofNat 10 b.toNat
  if msb ^^ b then r' ^^^ BitVec.ofNat 10 g else r'

/-- The 21 data bits, most significant first: step `k` processes `d[20 - k]` (40_bch_encoder.md R101). -/
def positionBits (d : BitVec 21) : List Bool := (List.range 21).map fun k => d.getLsbD (20 - k)

/-- The register after the steps of the loop of R101, from 0. `bch_reg` (10_state.md R32) is this
value while the loop runs; nothing of it stays. -/
def bchRegister (g : Nat) (bits : List Bool) : Nat := bits.foldl (bchStep g) 0

/-- `encode_position_parity(d)`: the low 10 bits of the register after 21 steps (40_bch_encoder.md R101). -/
def encodePositionParity (g : Nat) (d : BitVec 21) : BitVec 10 :=
  BitVec.ofNat 10 (bchRegister g (positionBits d))

/-- `encode_position_parity` by the 10-bit step (40_bch_encoder.md R102). -/
def encodePositionParity10 (g : Nat) (d : BitVec 21) : BitVec 10 :=
  (positionBits d).foldl (bchStep10 g) 0#10

/-- `encode_id_parity(d)`, the identity (40_bch_encoder.md R106). -/
def encodeIdParity (d : BitVec 12) : BitVec 12 := d

/-- ENC_POS (40_bch_encoder.md R101): returns the parity, in every lifecycle state. -/
def execEncPos (d : Nat) (s : State) : Answer :=
  unlessFaulted s fun s =>
    .next (s.returnToHost (.positionParity (encodePositionParity s.params.genPoly (positionData d))))

/-- ENC_ID (40_bch_encoder.md R106): returns the operand, in every lifecycle state. -/
def execEncId (d : Nat) (s : State) : Answer :=
  unlessFaulted s fun s => .next (s.returnToHost (.idParity (encodeIdParity (idData d))))

end Sys2Proof.Machine
end

