-- ==== Sys2Proof/Machine/FrameBuilder.lean ====
section
/-! DEFINITION. The frame builder: BUILD (41_frame_builder.md). -/

namespace Sys2Proof.Machine

/-- `F[i] <- b` for a transmission position `i`; a position the frame does not have changes nothing
(41_frame_builder.md R120, R123). -/
def frameSet (f : Frame) (i : Nat) (b : Bool) : Frame :=
  if i < Config.frameBits then
    let mask : Frame := BitVec.twoPow 121 (120 - i)
    if b then f ||| mask else f &&& ~~~mask
  else f

/-- `put_field(F, start, n, v)`: `F[start + j] <- v[n - 1 - j]` for `j` in 0..n-1, so the field's most
significant bit stands at `start` (41_frame_builder.md R123). -/
def putField (start : Nat) {n : Nat} (v : BitVec n) (f : Frame) : Frame :=
  (List.range n).foldl (fun f j => frameSet f (start + j) (v.getLsbD (n - 1 - j))) f

/-- The eight fields in the order of `build_frame`'s pseudocode, on the truncated operands
(41_frame_builder.md R120, R121, R124 to R126). The eight fields cover all 121 positions, so the value
the array starts from is never read. -/
def buildFrame (g : Nat) (cc : BitVec 10) (aid : BitVec 24) (pos : BitVec 21) (off : BitVec 20) : Frame :=
  let f : Frame := 0#121
  let f := putField 0 (0x7FFF#15) f
  let f := putField 15 Config.frameSync f
  let f := putField 24 cc f
  let f := putField 34 aid f
  let f := putField 58 pos f
  let f := putField 79 off f
  let f := putField 99 (encodePositionParity g pos) f
  putField 109 (encodeIdParity (aid.setWidth 12)) f

/-- BUILD (41_frame_builder.md R121): legal in `life = Reset` only (R127). -/
def execBuild (cc aid pos off : Nat) (s : State) : Answer :=
  unlessFaulted s fun s =>
    inSequence .reset (.build cc aid pos off) s fun s =>
      let f := buildFrame s.params.genPoly (countryCode cc) (aircraftId aid) (position pos) (positionOffset off)
      .next ((s.frameWrite f).setLife .built)

end Sys2Proof.Machine
end

