-- ==== Sys2Proof/Machine/Flags.lean ====
section
/-! DEFINITION. The block has no flags (10_state.md R34). The conditions the scheduler tests are computed
inside the tick from the counters and leave no flag; they stand here, each once. -/

namespace Sys2Proof.Machine

/-- `bit_index < 121`: a frame bit is being transmitted, not the guard interval (10_state.md R25). -/
def inFrame (t : TransmitterState) : Bool := decide (t.bitIndex.toNat < Config.frameBits)

/-- The incremented preamble counter has reached `PREAMBLE_TICKS` (42_sample_scheduler.md R147). -/
def preambleBudgetReached (n : BitVec 15) : Bool := decide (n.toNat = Config.preambleTicks)

/-- The incremented symbol counter has reached `TICKS_PER_SYMBOL` (42_sample_scheduler.md R148). -/
def symbolBudgetReached (n : BitVec 9) : Bool := decide (n.toNat = Config.ticksPerSymbol)

/-- The incremented guard counter has reached `GUARD_SYMBOLS` (42_sample_scheduler.md R149). -/
def guardBudgetReached (q : Params) (n : Nat) : Bool := decide (n = q.guardSymbols)

/-- `GUARD_WIDTH`, "the least N with `GUARD_SYMBOLS < 2^N`" (10_state.md section 1). -/
def guardWidth (q : Params) : Nat := if q.guardSymbols = 0 then 0 else q.guardSymbols.log2 + 1

end Sys2Proof.Machine
end

