-- ==== Sys2Proof/Machine/Scheduler.lean ====
section
/-! DEFINITION. The sample scheduler: TICK (42_sample_scheduler.md). -/

namespace Sys2Proof.Machine

/-- The frame bit the tick transmits: `frame[bit_index]` while `bit_index < 121`, else bit 0, and then
the frame is not read (42_sample_scheduler.md R144). -/
def currentBit (s : State) : Except Fault Bool :=
  if inFrame s.transmitter then
    match s.frameRead s.transmitter.bitIndex.toNat with
    | some b => .ok b
    | none => .error .frameUnwritten
  else .ok false

/-- A table read's sample, or the model's stop for an index the table does not have (20_memory.md R50). -/
def orRomFault : Option Sample → Except Fault Sample
  | some v => .ok v
  | none => .error .romIndexOutOfRange

/-- The sample the tick emits (42_sample_scheduler.md R143 in Preamble, R144 in Data). -/
def selectSample (s : State) : Except Fault Sample :=
  let p := s.transmitter.carrierPosition.toNat
  match s.transmitter.macroPhase with
  | .preamble => orRomFault (carrierRead s.params p)
  | .data =>
      match currentBit s with
      | .ok b => orRomFault (symbolRead s.params b p)
      | .error e => .error e

/-- The sink write first, the mirror second, in one atomic step (42_sample_scheduler.md R145). -/
def emitSample (v : Sample) (s : State) : State := (s.sinkWrite v s.params.sampleWidth).setDbg v

/-- `carrier_position <- (carrier_position + 1) mod 5`, in every tick (42_sample_scheduler.md R146). -/
def advanceCarrier (t : TransmitterState) : TransmitterState :=
  { t with carrierPosition := BitVec.ofNat 3 ((t.carrierPosition.toNat + 1) % Config.carrierLen) }

/-- Preamble counting (42_sample_scheduler.md R147). -/
def advancePreamble (t : TransmitterState) : TransmitterState :=
  let n := t.preambleTickCount + 1#15
  if preambleBudgetReached n then
    { t with macroPhase := .data, preambleTickCount := 0#15, bitIndex := 0#7, symbolTickCount := 0#9 }
  else { t with preambleTickCount := n }

/-- Guard counting and the return to Preamble (42_sample_scheduler.md R149, 90_conflicts.md C3). -/
def advanceGuard (q : Params) (t : TransmitterState) : TransmitterState :=
  let n := trunc (guardWidth q) (t.guardSymbolCount + 1)
  if guardBudgetReached q n then
    { t with macroPhase := .preamble, guardSymbolCount := 0, preambleTickCount := 0#15,
             symbolTickCount := 0#9, bitIndex := 0#7 }
  else { t with guardSymbolCount := n }

/-- Symbol counting (42_sample_scheduler.md R148), and at a symbol boundary of the guard interval the
guard counting of R149. -/
def advanceData (q : Params) (t : TransmitterState) : TransmitterState :=
  let n := t.symbolTickCount + 1#9
  if symbolBudgetReached n then
    let t := { t with symbolTickCount := 0#9 }
    if inFrame t then { t with bitIndex := t.bitIndex + 1#7 } else advanceGuard q t
  else { t with symbolTickCount := n }

/-- The advance of a tick: the carrier, then the counters of the macro-phase the tick found
(42_sample_scheduler.md R142). -/
def advance (q : Params) (t : TransmitterState) : TransmitterState :=
  match t.macroPhase with
  | .preamble => advancePreamble (advanceCarrier t)
  | .data => advanceData q (advanceCarrier t)

/-- TICK (42_sample_scheduler.md R142): select, output, advance. -/
def execTick (s : State) : Answer :=
  unlessFaulted s fun s =>
    if s.life = .running then
      match selectSample s with
      | .ok v => .next ((emitSample v s).setTransmitter (advance s.params s.transmitter))
      | .error e => .fault e
    else .next (s.raiseFault .tickBeforeEnable (encode .tick))

end Sys2Proof.Machine
end

