-- ==== Sys2Proof/Machine/Dispatch.lean ====
section
/-! DEFINITION. One arm per operation, each one call of its meaning. -/

namespace Sys2Proof.Machine

def exec (i : Instr) (s : State) : Host.Outcome State Fault Refusal :=
  match i with
  | .encPos d => Sys2Proof.Machine.execEncPos d s
  | .encId d => Sys2Proof.Machine.execEncId d s
  | .build cc aid pos off => Sys2Proof.Machine.execBuild cc aid pos off s
  | .cfgSink => Sys2Proof.Machine.execCfgSink s
  | .cfgTick rate => Sys2Proof.Machine.execCfgTick rate s
  | .enable => Sys2Proof.Machine.execEnable s
  | .tick => Sys2Proof.Machine.execTick s
  | .dbgRead => Sys2Proof.Machine.execDbgRead s

end Sys2Proof.Machine
end

