-- ==== Sys2Proof/Machine/Step.lean ====
section
/-! DEFINITION. One step of the block (20_memory.md R58, 60_exceptions.md R205). -/

namespace Sys2Proof.Machine

/-- One step: refuse a configuration the spec refuses; with no operation to run, wait (R231); else take
the next word, decode it, and run the operation or raise `Fault(ILLEGAL_COMMAND)` (30_encoding.md R74). -/
def step (s : State) : Host.Outcome State Fault Refusal :=
  match configRefusal s.params with
  | some r => .refused r
  | none =>
      match s.nextWord with
      | none => .next s
      | some w =>
          match decode w with
          | .op i => exec i s.dropWord
          | .illegal _ => illegalCommand w s.dropWord

/-- `s` with the command word whose low `nbits` bits are those of `w`, its other bits 0, standing next
(the host or the tick source issues it; assumption 7). -/
def State.withFetchWord (s : State) (nbits w : Nat) : State :=
  { s with pending := BitVec.ofNat 80 (trunc nbits w) :: s.pending }

end Sys2Proof.Machine
end

