-- ==== Sys2Proof/Machine/Assembler.lean ====
section
/-! DEFINITION. The spec's assembler: its pseudo-operations TICK*n and BOOT (30_encoding.md R76) and its line
syntax (30_encoding.md R75). It makes command words; the block never sees it. -/

namespace Sys2Proof.Machine

/-- One assembler line: an operation or one of the two pseudo-operations (30_encoding.md R75, R76). -/
inductive AsmLine where
  | op (i : Instr)
  /-- `TICK*n`. -/
  | ticks (n : Nat)
  /-- `BOOT cc, aid, pos, off`. -/
  | boot (cc aid pos off : Nat)
  deriving DecidableEq, Repr

/-- The operations a line stands for, in order (30_encoding.md R76). -/
def expandLine : AsmLine → List Instr
  | .op i => [i]
  | .ticks n => List.replicate n .tick
  | .boot cc aid pos off => [.build cc aid pos off, .cfgSink, .cfgTick 200000, .enable]

/-- The command words of a program, in issue order (30_encoding.md R73, R75, R76). -/
def assemble (lines : List AsmLine) : List Word := (lines.flatMap expandLine).map encode

/-- Space and tab separate the mnemonic from its operands and may stand around a comma (assumption 20). -/
def isBlank (c : Char) : Bool := c == ' ' || c == '\t'

/-- A token without the blanks around it. -/
def trimBlanks (cs : List Char) : List Char :=
  ((cs.dropWhile isBlank).reverse.dropWhile isBlank).reverse

/-- The value of a digit in base 16; base 10 digits are those below 10. -/
def digitValue (c : Char) : Option Nat :=
  if '0' ≤ c ∧ c ≤ '9' then some (c.toNat - '0'.toNat)
  else if 'a' ≤ c ∧ c ≤ 'f' then some (c.toNat - 'a'.toNat + 10)
  else if 'A' ≤ c ∧ c ≤ 'F' then some (c.toNat - 'A'.toNat + 10)
  else none

/-- One digit more of a number in the given base. -/
def addDigit (base : Nat) (acc : Option Nat) (c : Char) : Option Nat :=
  match acc, digitValue c with
  | some a, some d => if d < base then some (a * base + d) else none
  | _, _ => none

/-- The digits of a number in the given base; there must be at least one. -/
def digits (base : Nat) (cs : List Char) : Option Nat :=
  if cs.isEmpty then none else cs.foldl (addDigit base) (some 0)

/-- "each a hexadecimal (`0x...`) or decimal number" (30_encoding.md R75). -/
def parseNumber : List Char → Option Nat
  | '0' :: 'x' :: cs => digits 16 cs
  | cs => digits 10 cs

/-- The operands after a mnemonic, "separated by commas" (30_encoding.md R75); none where nothing follows it. -/
def parseOperands (cs : List Char) : Option (List Nat) :=
  if (trimBlanks cs).isEmpty then some []
  else (cs.splitOn ',').mapM fun token => parseNumber (trimBlanks token)

/-- A mnemonic with its operands "in the order of rule R72's table" (30_encoding.md R75, R76). -/
def lineOf (mnemonic : List Char) (operands : List Nat) : Option AsmLine :=
  if mnemonic = "ENC_POS".toList then (match operands with | [d] => some (.op (.encPos d)) | _ => none)
  else if mnemonic = "ENC_ID".toList then (match operands with | [d] => some (.op (.encId d)) | _ => none)
  else if mnemonic = "BUILD".toList then
    (match operands with | [cc, aid, pos, off] => some (.op (.build cc aid pos off)) | _ => none)
  else if mnemonic = "CFG_SINK".toList then (match operands with | [] => some (.op .cfgSink) | _ => none)
  else if mnemonic = "CFG_TICK".toList then
    (match operands with | [rate] => some (.op (.cfgTick rate)) | _ => none)
  else if mnemonic = "ENABLE".toList then (match operands with | [] => some (.op .enable) | _ => none)
  else if mnemonic = "TICK".toList then (match operands with | [] => some (.op .tick) | _ => none)
  else if mnemonic = "DBG_READ".toList then (match operands with | [] => some (.op .dbgRead) | _ => none)
  else if mnemonic = "BOOT".toList then
    (match operands with | [cc, aid, pos, off] => some (.boot cc aid pos off) | _ => none)
  else if mnemonic.take 5 = "TICK*".toList then
    (match operands, parseNumber (mnemonic.drop 5) with | [], some n => some (.ticks n) | _, _ => none)
  else none

/-- What a source line holds: nothing, a line of the program, or text that is no line of the syntax. -/
inductive ParsedLine where
  | empty
  | line (l : AsmLine)
  | malformed
  deriving DecidableEq, Repr

/-- One source line: "the mnemonic, then its operands separated by commas"; "`;` starts a comment" (30_encoding.md R75). -/
def parseLine (source : List Char) : ParsedLine :=
  let text := trimBlanks (source.takeWhile (· != ';'))
  if text.isEmpty then .empty
  else
    let mnemonic := text.takeWhile fun c => !isBlank c
    match parseOperands (text.drop mnemonic.length) with
    | none => .malformed
    | some operands =>
        match lineOf mnemonic operands with
        | some l => .line l
        | none => .malformed

end Sys2Proof.Machine
end

