-- ==== Sys2Proof/Safety.lean ====
section
/-! DEFINITION. The terms the claims are stated in: which configurations are legal, what holds of every
state a run reaches, the closed form of the output, and the named premise of a run. -/

namespace Sys2Proof.Machine

/-- The parameters are as 00_scope.md R6 constrains them: `GEN_POLY` of 11 bits with bit 10 set, at least one
guard symbol, `SAMPLE_WIDTH >= 1`, and every table entry below `2 ^ SAMPLE_WIDTH` (42_sample_scheduler.md R140). -/
abbrev ParamsValid (q : Params) : Prop :=
  0x400 ≤ q.genPoly ∧ q.genPoly ≤ 0x7FF ∧ 1 ≤ q.guardSymbols ∧ 1 ≤ q.sampleWidth ∧
  (∀ v ∈ q.carrierSamples.toList, v < 2 ^ q.sampleWidth) ∧
  (∀ row ∈ q.symbolSamples.toList, ∀ v ∈ row.toList, v < 2 ^ q.sampleWidth)

/-- The block runs: the parameters whose other values a model refuses are in range (40_bch_encoder.md R107,
42_sample_scheduler.md R149). -/
abbrev ConfigAccepted (q : Params) : Prop := 0x400 ≤ q.genPoly ∧ q.genPoly ≤ 0x7FF ∧ q.guardSymbols ≠ 0

/-- No fault is recorded: the premise of every claim about what a run does (60_exceptions.md R202). It implies
`NoDeadlineMiss` (`noDeadlineMiss_of_noFault`, Laws/Safety.lean). -/
abbrev NoFault (s : State) : Prop := s.fault = none

/-- The named premise "no deadline was missed" of every claim (60_exceptions.md R204, 70_reset_and_hazards.md R234):
no DEADLINE_MISS is recorded, which is where a timed model would record the miss. The untimed model has no step
that does, so the premise holds of every state it reaches from reset; of a timed chip it is an assumption
(assumption 16). -/
abbrev NoDeadlineMiss (s : State) : Prop := s.fault.map FaultRecord.code ≠ some .deadlineMiss

/-! ### The scheduler's registers (10_state.md R36) -/

/-- The first five bullets of 10_state.md R36. -/
abbrev TransmitterInRange (q : Params) (t : TransmitterState) : Prop :=
  t.carrierPosition.toNat ≤ 4 ∧
  (t.macroPhase = .preamble →
    t.symbolTickCount = 0#9 ∧ t.bitIndex = 0#7 ∧ t.guardSymbolCount = 0 ∧ t.preambleTickCount.toNat ≤ 31999) ∧
  (t.macroPhase = .data →
    t.preambleTickCount = 0#15 ∧ t.symbolTickCount.toNat ≤ 499 ∧ t.bitIndex.toNat ≤ 121) ∧
  (0 < t.guardSymbolCount → t.bitIndex = 121#7) ∧
  t.guardSymbolCount ≤ q.guardSymbols - 1

/-- The sixth bullet of 10_state.md R36: `T`, the number of ticks taken since reset, is the number of
sink calls made, one a tick (42_sample_scheduler.md R145). -/
abbrev CarrierCountsTicks (s : State) : Prop := s.transmitter.carrierPosition.toNat = s.out.length % 5

/-! ### The startup contract (10_state.md R28 to R30) -/

/-- The frame is written exactly from BUILD on (10_state.md R28, R29); before Running no tick has run, so the
scheduler stands as reset left it and no sample is written (70_reset_and_hazards.md R231); the debug mirror is
the last sample written, and holds no value before the first (10_state.md R30). -/
abbrev StartupConsistent (s : State) : Prop :=
  (s.life = .reset ↔ s.frame = none) ∧
  (s.life ≠ .running → s.transmitter = TransmitterState.reset ∧ s.out = []) ∧
  s.dbg = s.out.getLast?.map SinkCall.sample

/-- Everything the model promises of a state a run reaches, in which a tick is therefore defined. -/
abbrev Reached (s : State) : Prop :=
  TransmitterInRange s.params s.transmitter ∧ StartupConsistent s

/-- The place of a lifecycle state in the startup order (10_state.md R29). -/
def lifeRank : Life → Nat
  | .reset => 0
  | .built => 1
  | .sinkReady => 2
  | .tickConfigured => 3
  | .running => 4

/-! ### The frame (41_frame_builder.md R128) -/

/-- The `n` frame elements from `start` on, read most significant bit first (00_scope.md R8, 41_frame_builder.md R120). -/
def frameField (f : Frame) (start n : Nat) : BitVec n := f.extractLsb' (121 - start - n) n

/-- The properties of every built frame (41_frame_builder.md R128). -/
abbrev FrameShaped (g : Nat) (f : Frame) : Prop :=
  frameField f 0 15 = 0x7FFF#15 ∧
  frameField f 15 9 = 0b110101100#9 ∧
  frameField f 99 10 = encodePositionParity g (frameField f 58 21) ∧
  frameField f 109 12 = frameField f 46 12

/-- The stored frame, if any, has those properties for the block's own polynomial. -/
abbrev StoredFrameShaped (s : State) : Prop := ∀ f, s.frame = some f → FrameShaped s.params.genPoly f

/-! ### The closed form of the output (42_sample_scheduler.md R150, R151) -/

/-- `L`, the ticks of one Preamble, Data and guard cycle (42_sample_scheduler.md R151). -/
def cycleLength (q : Params) : Nat := 32000 + (121 + q.guardSymbols) * 500

/-- The scheduler's registers before tick `T` of a run from reset (42_sample_scheduler.md R150). -/
def transmitterAt (q : Params) (T : Nat) : TransmitterState :=
  let u := T % cycleLength q
  let k := (u - 32000) / 500
  if u < 32000 then
    ⟨.preamble, BitVec.ofNat 3 (T % 5), BitVec.ofNat 15 u, 0#9, 0#7, 0⟩
  else
    ⟨.data, BitVec.ofNat 3 (T % 5), 0#15, BitVec.ofNat 9 ((u - 32000) % 500), BitVec.ofNat 7 (min k 121), k - 121⟩

/-- `out[T]` of 42_sample_scheduler.md R150 for a block that transmits the frame `f`. -/
def sampleAt (q : Params) (f : Frame) (T : Nat) : Option Sample :=
  let u := T % cycleLength q
  let k := (u - 32000) / 500
  if u < 32000 then carrierRead q (T % 5)
  else symbolRead q (if k < 121 then frameBit f k else false) (T % 5)

/-- Every sample written so far is the one 42_sample_scheduler.md R150 gives its tick, and the registers
stand where the next tick finds them. Before Running nothing is written. -/
abbrev OutputClosedForm (s : State) : Prop :=
  (s.life ≠ .running → s.out = []) ∧
  (s.life ≠ .reset → s.frame.isSome) ∧
  s.transmitter = transmitterAt s.params s.out.length ∧
  ∀ f, s.frame = some f → ∀ (T : Nat) (c : SinkCall), s.out[T]? = some c → sampleAt s.params f T = some c.sample

/-- Every sink call passes `SAMPLE_WIDTH` and a sample of that width (43_control_interface.md R184). -/
abbrev SinkCallsInWidth (s : State) : Prop :=
  ParamsValid s.params ∧ ∀ c ∈ s.out, c.bitWidth = s.params.sampleWidth ∧ c.sample < 2 ^ s.params.sampleWidth

/-! ### Fault records (60_exceptions.md R201) -/

/-- The recorded word is one that raises the recorded code (60_exceptions.md R201, the column "raised by"). -/
def recordMatches (r : FaultRecord) : Prop :=
  match r.code with
  | .illegalCommand => ∃ why, decode r.word = .illegal why
  | .sequence =>
      (∃ cc aid pos off, decode r.word = .op (.build cc aid pos off)) ∨ decode r.word = .op .cfgSink ∨
      (∃ rate, decode r.word = .op (.cfgTick rate)) ∨ decode r.word = .op .enable
  | .tickBeforeEnable => decode r.word = .op .tick
  | .badConfig => ∃ rate, decode r.word = .op (.cfgTick rate) ∧ rate ≠ 200000
  | .deadlineMiss => False
  | .debugNoValue => decode r.word = .op .dbgRead

/-- The fault register, if set, holds a matching record; no record is a deadline miss (60_exceptions.md R204). -/
abbrev FaultRecordMatches (s : State) : Prop := ∀ r, s.fault = some r → recordMatches r

/-- Wherever this command word stands next in an unfaulted block, it raises `Fault(ILLEGAL_COMMAND)`, "and
nothing else happens" but that the word is taken from the model's list (30_encoding.md R74; assumption 5). -/
def RaisesIllegalCommand (w : Word) : Prop :=
  ∀ s : State, ConfigAccepted s.params → NoFault s → s.nextWord = some w →
    step s = .next { s with pending := s.pending.tail, fault := some ⟨.illegalCommand, w⟩ }

/-! ### What a host operation can see (10_state.md R27) -/

/-- The same answer but for the six scheduler registers, which `t` replaces. -/
def Answer.withTransmitter (t : TransmitterState) : Answer → Answer
  | .next s => .next (s.setTransmitter t)
  | .fault e => .fault e
  | .refused r => .refused r

end Sys2Proof.Machine
end

