-- ==== Sys2Proof/Certificates/Slice0/Obligations.lean ====
section
/-! DEFINITION. The statements for the provers. Each docstring says which rule of spec/ it formalises.
Every statement about a state carries the named premise "no deadline was missed" (60_exceptions.md R204,
70_reset_and_hazards.md R234; assumption 16): as `NoDeadlineMiss`, or as `NoFault`, which implies it
(`noDeadlineMiss_of_noFault`). The exceptions are what R202 and R206 say of a recorded fault, DEADLINE_MISS
among them, and the state after reset, where no tick has run. -/

open Sys2Proof Sys2Proof.Machine

/-- The polynomial over GF(2) that the low `n` bits of `v` stand for: the sum of `v[i]·x^i` (00_scope.md R10). -/
noncomputable def Sys2Proof.Machine.polynomialOf (n v : Nat) : Polynomial (ZMod 2) :=
  ∑ i ∈ Finset.range n, if v.testBit i then Polynomial.X ^ i else 0

/-! ### Encoding (30_encoding.md) -/

/-- The decoder reads back every operation the encoder writes, whatever its operands (30_encoding.md R70 to R73). -/
def Obligations.EncodedOperationsDecodeToThemselves : Prop :=
  ∀ i : Instr, i.wellFormed = true → decode (encode i) = .op i

/-- A legal word decodes to a well-formed operation and is that operation's only word (30_encoding.md R70 to R74). -/
def Obligations.LegalWordsAreTheEncodingOfTheirOperation : Prop :=
  ∀ (w : Word) (i : Instr), decode w = .op i → i.wellFormed = true ∧ encode i = w

/-- R74: which words are legal and what each decodes to, bit by bit; every other word is illegal, and an
illegal word raises ILLEGAL_COMMAND and does nothing else. -/
def Obligations.DecodingIsTheReservedBitRule : Prop :=
  ∀ w : Word,
    (w.extractLsb' 0 4 = 0x1#4 → w.extractLsb' 25 55 = 0#55 → decode w = .op (.encPos (w.extractLsb' 4 21).toNat)) ∧
    (w.extractLsb' 0 4 = 0x2#4 → w.extractLsb' 16 64 = 0#64 → decode w = .op (.encId (w.extractLsb' 4 12).toNat)) ∧
    (w.extractLsb' 0 4 = 0x3#4 → w.extractLsb' 79 1 = 0#1 →
      decode w = .op (.build (w.extractLsb' 4 10).toNat (w.extractLsb' 14 24).toNat (w.extractLsb' 38 21).toNat
        (w.extractLsb' 59 20).toNat)) ∧
    (w.extractLsb' 0 4 = 0x4#4 → w.extractLsb' 4 76 = 0#76 → decode w = .op .cfgSink) ∧
    (w.extractLsb' 0 4 = 0x5#4 → w.extractLsb' 22 58 = 0#58 → decode w = .op (.cfgTick (w.extractLsb' 4 18).toNat)) ∧
    (w.extractLsb' 0 4 = 0x6#4 → w.extractLsb' 4 76 = 0#76 → decode w = .op .enable) ∧
    (w.extractLsb' 0 4 = 0x7#4 → w.extractLsb' 4 76 = 0#76 → decode w = .op .tick) ∧
    (w.extractLsb' 0 4 = 0x8#4 → w.extractLsb' 4 76 = 0#76 → decode w = .op .dbgRead) ∧
    ((∃ why, decode w = .illegal why) ↔
      w.extractLsb' 0 4 = 0x0#4 ∨ 0x9 ≤ (w.extractLsb' 0 4).toNat ∨
      (w.extractLsb' 0 4 = 0x1#4 ∧ ∃ b, 25 ≤ b ∧ b ≤ 79 ∧ w.getLsbD b = true) ∨
      (w.extractLsb' 0 4 = 0x2#4 ∧ ∃ b, 16 ≤ b ∧ b ≤ 79 ∧ w.getLsbD b = true) ∨
      (w.extractLsb' 0 4 = 0x3#4 ∧ w.getLsbD 79 = true) ∨
      (w.extractLsb' 0 4 = 0x5#4 ∧ ∃ b, 22 ≤ b ∧ b ≤ 79 ∧ w.getLsbD b = true) ∨
      ((w.extractLsb' 0 4 = 0x4#4 ∨ w.extractLsb' 0 4 = 0x6#4 ∨ w.extractLsb' 0 4 = 0x7#4 ∨ w.extractLsb' 0 4 = 0x8#4) ∧
        ∃ b, 4 ≤ b ∧ b ≤ 79 ∧ w.getLsbD b = true)) ∧
    ((∃ why, decode w = .illegal why) → RaisesIllegalCommand w)

/-- An operand wider than its field is reduced to the field's low bits, in the command word and in the
operation's effect alike (30_encoding.md R73, R75; for operations other than BUILD the effect of a wide
operand is the model's choice, assumption 18). -/
def Obligations.WideOperandsActAsTheirLowBits : Prop :=
  ∀ (i : Instr) (s : State),
    (truncateOperands i).wellFormed = true ∧ encode i = encode (truncateOperands i) ∧
    (NoDeadlineMiss s → exec i s = exec (truncateOperands i) s)

/-- R122: BUILD keeps the low 10, 24, 21 and 20 bits of its inputs and rejects none of them. -/
def Obligations.BuildTruncatesItsInputs : Prop :=
  ∀ (cc aid pos off : Nat) (s : State), NoDeadlineMiss s →
    exec (.build cc aid pos off) s = exec (.build (cc % 2 ^ 10) (aid % 2 ^ 24) (pos % 2 ^ 21) (off % 2 ^ 20)) s ∧
    (NoFault s → s.life = .reset → ∃ t, exec (.build cc aid pos off) s = .next t ∧ NoFault t ∧ t.life = .built)

/-- The twelve words the spec writes out (30_encoding.md section 5), decoded. -/
def Obligations.WrittenOutWordsDecode : Prop :=
  decode 0x000000000000001A5F31#80 = .op (.encPos 0x1A5F3) ∧
  decode 0x0000000000000000F3C2#80 = .op (.encId 0xF3C) ∧
  decode 0x052F98697CC297CF2A53#80 = .op (.build 0x2A5 0xA5F3C 0x1A5F3 0x0A5F3) ∧
  decode 0x00000000000000000003#80 = .op (.build 0 0 0 0) ∧
  decode 0x00000000000000000004#80 = .op .cfgSink ∧
  decode 0x0000000000000030D405#80 = .op (.cfgTick 200000) ∧
  decode 0x00000000000000186A05#80 = .op (.cfgTick 100000) ∧
  decode 0x00000000000000000006#80 = .op .enable ∧
  decode 0x00000000000000000007#80 = .op .tick ∧
  decode 0x00000000000000000008#80 = .op .dbgRead ∧
  decode 0x00000000000000000009#80 = .illegal (.reservedOp 0x9) ∧
  decode 0x00000000000000000014#80 = .illegal (.reservedPayload 0x4)

/-- R76: `TICK*n` is `n` copies of the TICK word, and BOOT is the four startup operations in contract order. -/
def Obligations.PseudoOperationsExpand : Prop :=
  (∀ n, assemble [.ticks n] = List.replicate n 0x00000000000000000007#80) ∧
  (∀ cc aid pos off, assemble [.boot cc aid pos off] =
    [encode (.build cc aid pos off), 0x00000000000000000004#80, 0x0000000000000030D405#80, 0x00000000000000000006#80])

/-! ### The step (20_memory.md R58, 43_control_interface.md R185, 60_exceptions.md R202) -/

/-- Where the next word decodes to `i`, a step is `exec i` on the state with that word taken, and nothing
else; with no word standing in Running, the word is the tick source's TICK (43_control_interface.md R185). -/
def Obligations.StepRunsTheDecodedOperation : Prop :=
  (∀ (s : State) (w : Word) (ws : List Word) (i : Instr), NoDeadlineMiss s → ConfigAccepted s.params →
    s.pending = w :: ws → decode w = .op i → step s = exec i { s with pending := ws }) ∧
  (∀ s : State, NoDeadlineMiss s → ConfigAccepted s.params → s.pending = [] → s.life = .running →
    step s = exec .tick s) ∧
  (∀ s : State, NoDeadlineMiss s → ConfigAccepted s.params → s.pending = [] → s.life ≠ .running → step s = .next s)

/-- Every step is refused where `GEN_POLY` is out of 0x400..0x7FF or `GUARD_SYMBOLS = 0`, and no step is refused
for anything else. That a model refuses those two configurations is 40_bch_encoder.md R107 and
42_sample_scheduler.md R149. That the refusal is the answer of every step, and that nothing else is refused (not
SAMPLE_WIDTH = 0, nor a table entry of more bits), is the model's own reading (assumption 22). -/
def Obligations.OnlyBadConfigurationsAreRefused : Prop :=
  ∀ s : State, NoDeadlineMiss s → ((∃ r, step s = .refused r) ↔
    s.params.genPoly < 0x400 ∨ 0x7FF < s.params.genPoly ∨ s.params.guardSymbols = 0)

/-- R202: once a fault is recorded no operation executes: every operation and every step leave the state,
the output and the returned values as they are (a step takes the word it ignores, the
model's reading, assumption 9), so the fault stays. It speaks of every code, so it carries no premise about
deadlines: a recorded DEADLINE_MISS stops the block too. -/
def Obligations.RecordedFaultStopsTheBlock : Prop :=
  ∀ (s : State) (r : FaultRecord), s.fault = some r →
    (∀ i, exec i s = .next s) ∧
    (ConfigAccepted s.params → step s = .next { s with pending := s.pending.tail })

/-- R206: one fault is reported, the first in the order decode, lifecycle, operand, debug value; and with
a fault already recorded nothing is checked. That a step takes its word from `pending` is the model's form
(assumptions 5 and 9). -/
def Obligations.FirstFaultInPriorityIsReported : Prop :=
  ∀ (s : State) (w : Word), ConfigAccepted s.params → s.nextWord = some w →
    (∀ r, s.fault = some r → step s = .next { s with pending := s.pending.tail }) ∧
    (NoFault s →
      (∀ why, decode w = .illegal why →
        step s = .next { s with pending := s.pending.tail, fault := some ⟨.illegalCommand, w⟩ }) ∧
      (∀ rate, decode w = .op (.cfgTick rate) → s.life ≠ .sinkReady →
        step s = .next { s with pending := s.pending.tail, fault := some ⟨.sequence, w⟩ }) ∧
      (∀ rate, decode w = .op (.cfgTick rate) → s.life = .sinkReady → rate ≠ 200000 →
        step s = .next { s with pending := s.pending.tail, fault := some ⟨.badConfig, w⟩ }) ∧
      ((decode w = .op .cfgSink ∧ s.life ≠ .built) ∨ (decode w = .op .enable ∧ s.life ≠ .tickConfigured) ∨
        ((∃ cc aid pos off, decode w = .op (.build cc aid pos off)) ∧ s.life ≠ .reset) →
        step s = .next { s with pending := s.pending.tail, fault := some ⟨.sequence, w⟩ }) ∧
      (decode w = .op .tick → s.life ≠ .running →
        step s = .next { s with pending := s.pending.tail, fault := some ⟨.tickBeforeEnable, w⟩ }) ∧
      (decode w = .op .dbgRead → s.dbg = none →
        step s = .next { s with pending := s.pending.tail, fault := some ⟨.debugNoValue, w⟩ }))

/-! ### The BCH parity encoder (40_bch_encoder.md) -/

/-- R101: ENC_POS returns the low 10 bits of the register after the 21 steps, most significant bit first, in
every lifecycle state, and writes no state; a reserved bit raises ILLEGAL_COMMAND; 0 gives 0; the worked example. -/
def Obligations.EncPosReturnsThePositionParity : Prop :=
  (∀ (d : Nat) (s : State), NoFault s → d < 2 ^ 21 →
    exec (.encPos d) s = .next { s with results := s.results ++ [.positionParity (BitVec.ofNat 10
      ((List.range 21).foldl (fun r k => bchStep s.params.genPoly r (d.testBit (20 - k))) 0))] }) ∧
  (∀ w : Word, w.extractLsb' 0 4 = 0x1#4 → w.extractLsb' 25 55 ≠ 0#55 → RaisesIllegalCommand w) ∧
  (∀ g, encodePositionParity g 0#21 = 0#10) ∧
  encodePositionParity 0x769 0x1A5F3#21 = 0x08A#10

/-- R106: ENC_ID returns its operand unchanged, in every lifecycle state, and writes no state. -/
def Obligations.EncIdReturnsItsOperand : Prop :=
  (∀ (d : Nat) (s : State), NoFault s → d < 2 ^ 12 →
    exec (.encId d) s = .next { s with results := s.results ++ [.idParity (BitVec.ofNat 12 d)] }) ∧
  (∀ w : Word, w.extractLsb' 0 4 = 0x2#4 → w.extractLsb' 16 64 ≠ 0#64 → RaisesIllegalCommand w)

/-- R108: two calls with the same data return the same value whatever the rest of the state, and with the
default polynomial the golden vector is 0x08A. -/
def Obligations.PositionParityIsDeterministic : Prop :=
  (∀ (d : Nat) (s t : State), NoFault s → NoFault t → s.params.genPoly = t.params.genPoly →
    ∃ p : BitVec 10,
      exec (.encPos d) s = .next { s with results := s.results ++ [.positionParity p] } ∧
      exec (.encPos d) t = .next { t with results := t.results ++ [.positionParity p] }) ∧
  encodePositionParity 0x769 0x1A5F3#21 = 0x08A#10

/-- R103: for every degree-10 polynomial the parity is `((x^10 + 1)·d(x)) mod g(x)`. -/
def Obligations.PositionParityClosedForm : Prop :=
  ∀ (g : Nat) (d : BitVec 21), 0x400 ≤ g → g ≤ 0x7FF →
    polynomialOf 10 (encodePositionParity g d).toNat =
      ((Polynomial.X ^ 10 + 1) * polynomialOf 21 d.toNat) %ₘ polynomialOf 11 g

/-- R104: the parity is linear over GF(2), and the parity of 0 is 0. -/
def Obligations.PositionParityIsLinear : Prop :=
  ∀ (g : Nat) (a b : BitVec 21),
    encodePositionParity g (a ^^^ b) = encodePositionParity g a ^^^ encodePositionParity g b ∧
    encodePositionParity g 0#21 = 0#10

/-- R102: the result does not depend on the register's width, from 10 bits up, and the 10-bit form of the
step gives it too. -/
def Obligations.PositionParityIgnoresTheRegisterWidth : Prop :=
  (∀ (g : Nat) (d : BitVec 21), encodePositionParity10 g d = encodePositionParity g d) ∧
  (∀ (g width : Nat) (d : BitVec 21), 10 ≤ width →
    BitVec.ofNat 10 ((positionBits d).foldl (fun r b => bchStep g r b % 2 ^ width) 0) = encodePositionParity g d)

/-- The parity differs from the textbook remainder `x^10·d mod g` by `d mod g`, so the 31 bits
Position‖PositionParity are a codeword of the cyclic code of `g` exactly when `g` divides `d` (40_bch_encoder.md R105). -/
def Obligations.TransmittedBitsAreACodewordOnlyIfGDividesD : Prop :=
  ∀ (g : Nat) (d : BitVec 21), 0x400 ≤ g → g ≤ 0x7FF →
    polynomialOf 10 (encodePositionParity g d).toNat =
      (Polynomial.X ^ 10 * polynomialOf 21 d.toNat) %ₘ polynomialOf 11 g +
      polynomialOf 21 d.toNat %ₘ polynomialOf 11 g ∧
    (polynomialOf 11 g ∣ Polynomial.X ^ 10 * polynomialOf 21 d.toNat +
        polynomialOf 10 (encodePositionParity g d).toNat ↔
      polynomialOf 11 g ∣ polynomialOf 21 d.toNat)

/-! ### The frame builder (41_frame_builder.md) -/

/-- R121: in `life = Reset` BUILD writes the eight fields, on the truncated operands, and `life` becomes
Built; in any other lifecycle state it raises SEQUENCE; `w[79] = 1` raises ILLEGAL_COMMAND; all-zero inputs
give a frame that is zero from index 24 on; the worked example. -/
def Obligations.BuildWritesTheFrame : Prop :=
  (∀ (cc aid pos off : Nat) (s : State), NoFault s → s.life = .reset →
    ∃ f : Frame, exec (.build cc aid pos off) s = .next { s with frame := some f, life := .built } ∧
      frameField f 0 15 = 0x7FFF#15 ∧ frameField f 15 9 = 0b110101100#9 ∧
      frameField f 24 10 = BitVec.ofNat 10 cc ∧ frameField f 34 24 = BitVec.ofNat 24 aid ∧
      frameField f 58 21 = BitVec.ofNat 21 pos ∧ frameField f 79 20 = BitVec.ofNat 20 off ∧
      frameField f 99 10 = encodePositionParity s.params.genPoly (BitVec.ofNat 21 pos) ∧
      frameField f 109 12 = encodeIdParity (BitVec.ofNat 12 aid)) ∧
  (∀ (cc aid pos off : Nat) (s : State), NoFault s → s.life ≠ .reset →
    exec (.build cc aid pos off) s =
      .next { s with fault := some ⟨.sequence, encode (.build cc aid pos off)⟩ }) ∧
  (∀ w : Word, w.extractLsb' 0 4 = 0x3#4 → w.getLsbD 79 = true → RaisesIllegalCommand w) ∧
  (∀ g, frameField (buildFrame g 0#10 0#24 0#21 0#20) 24 97 = 0#97) ∧
  frameField (buildFrame 0x769 0x2A5#10 0xA5F3C#24 0x1A5F3#21 0x0A5F3#20) 99 10 = 0x08A#10 ∧
  frameField (buildFrame 0x769 0x2A5#10 0xA5F3C#24 0x1A5F3#21 0x0A5F3#20) 109 12 = 0xF3C#12

/-- R127: BUILD is legal in `life = Reset` only; at any other point it raises SEQUENCE and leaves the frame,
and all else, unchanged. -/
def Obligations.BuildHappensOnce : Prop :=
  ∀ (cc aid pos off : Nat) (s : State), NoFault s →
    (s.life = .reset → ∃ t, exec (.build cc aid pos off) s = .next t ∧ NoFault t ∧ t.life = .built) ∧
    (s.life ≠ .reset → exec (.build cc aid pos off) s =
      .next { s with fault := some ⟨.sequence, encode (.build cc aid pos off)⟩ })

/-- R123: `put_field` places the field's most significant bit at `start`, the others after it in order, and
leaves every other element of the frame alone. -/
def Obligations.PutFieldPlacesMsbFirst : Prop :=
  ∀ (start n : Nat) (v : BitVec n) (f : Frame), start + n ≤ 121 →
    (∀ j, j < n → frameBit (putField start v f) (start + j) = v.getLsbD (n - 1 - j)) ∧
    (∀ k, k < 121 → k < start ∨ start + n ≤ k → frameBit (putField start v f) k = frameBit f k)

/-- R120: the built frame is the eight fields of the table, in order, 121 bits in all, `frame[0]` first. -/
def Obligations.BuiltFrameIsTheFieldsInOrder : Prop :=
  ∀ (g : Nat) (cc : BitVec 10) (aid : BitVec 24) (pos : BitVec 21) (off : BitVec 20),
    buildFrame g cc aid pos off =
      0x7FFF#15 ++ 0b110101100#9 ++ cc ++ aid ++ pos ++ off ++ encodePositionParity g pos ++ aid.setWidth 12 ∧
    ∀ (f : Frame) (i : Nat), i < 121 → frameBit f i = f.getLsbD (120 - i)

/-- The properties of every built frame (41_frame_builder.md R128) hold of the frame store in every state a
step leads to from a state where they hold. -/
def Obligations.StepKeepsTheStoredFrameShaped : Prop :=
  ∀ s t : State, NoDeadlineMiss s → StoredFrameShaped s → step s = .next t → StoredFrameShaped t

/-- Once written, the frame is never rewritten (10_state.md R28, 20_memory.md R51, R61), in every state that
keeps the startup contract. -/
def Obligations.WrittenFrameNeverChanges : Prop :=
  ∀ (s t : State) (f : Frame), NoDeadlineMiss s → StartupConsistent s → s.frame = some f → step s = .next t → t.frame = some f

/-! ### The control interface (43_control_interface.md) -/

/-- R180. -/
def Obligations.CfgSinkTakesBuiltToSinkReady : Prop :=
  (∀ s : State, NoFault s → s.life = .built → exec .cfgSink s = .next { s with life := .sinkReady }) ∧
  (∀ s : State, NoFault s → s.life ≠ .built →
    exec .cfgSink s = .next { s with fault := some ⟨.sequence, 0x00000000000000000004#80⟩ }) ∧
  (∀ w : Word, w.extractLsb' 0 4 = 0x4#4 → w.extractLsb' 4 76 ≠ 0#76 → RaisesIllegalCommand w)

/-- R181: only 200000 Hz is accepted; out of order is reported before a bad rate. -/
def Obligations.CfgTickTakesSinkReadyToTickConfigured : Prop :=
  (∀ s : State, NoFault s → s.life = .sinkReady →
    exec (.cfgTick 200000) s = .next { s with life := .tickConfigured }) ∧
  (∀ (rate : Nat) (s : State), NoFault s → s.life = .sinkReady → rate < 2 ^ 18 → rate ≠ 200000 →
    exec (.cfgTick rate) s = .next { s with fault := some ⟨.badConfig, encode (.cfgTick rate)⟩ }) ∧
  (∀ (rate : Nat) (s : State), NoFault s → s.life ≠ .sinkReady →
    exec (.cfgTick rate) s = .next { s with fault := some ⟨.sequence, encode (.cfgTick rate)⟩ }) ∧
  (∀ w : Word, w.extractLsb' 0 4 = 0x5#4 → w.extractLsb' 22 58 ≠ 0#58 → RaisesIllegalCommand w)

/-- R182: there is no disable, so Running is final. -/
def Obligations.EnableTakesTickConfiguredToRunning : Prop :=
  (∀ s : State, NoFault s → s.life = .tickConfigured → exec .enable s = .next { s with life := .running }) ∧
  (∀ s : State, NoFault s → s.life ≠ .tickConfigured →
    exec .enable s = .next { s with fault := some ⟨.sequence, 0x00000000000000000006#80⟩ }) ∧
  (∀ w : Word, w.extractLsb' 0 4 = 0x6#4 → w.extractLsb' 4 76 ≠ 0#76 → RaisesIllegalCommand w) ∧
  (∀ (i : Instr) (s t : State), NoDeadlineMiss s → s.life = .running → exec i s = .next t → t.life = .running)

/-- R183: DBG_READ returns the debug mirror, in every lifecycle state, and changes no state; before the first
tick it raises DEBUG_NO_VALUE. -/
def Obligations.DbgReadReturnsTheMirror : Prop :=
  (∀ (s : State) (v : Sample), NoFault s → s.dbg = some v →
    exec .dbgRead s = .next { s with results := s.results ++ [.debugSample v] }) ∧
  (∀ s : State, NoFault s → s.dbg = none →
    exec .dbgRead s = .next { s with fault := some ⟨.debugNoValue, 0x00000000000000000008#80⟩ }) ∧
  (∀ w : Word, w.extractLsb' 0 4 = 0x8#4 → w.extractLsb' 4 76 ≠ 0#76 → RaisesIllegalCommand w)

/-- R29: each of the four startup operations advances `life` from its own predecessor's state to its own,
nothing else changes `life`, and it never moves backwards. -/
def Obligations.LifeAdvancesOnlyInTheStartupOrder : Prop :=
  (∀ s : State, NoFault s →
    (s.life = .reset → ∀ cc aid pos off, ∃ t, exec (.build cc aid pos off) s = .next t ∧ t.life = .built) ∧
    (s.life = .built → ∃ t, exec .cfgSink s = .next t ∧ t.life = .sinkReady) ∧
    (s.life = .sinkReady → ∃ t, exec (.cfgTick 200000) s = .next t ∧ t.life = .tickConfigured) ∧
    (s.life = .tickConfigured → ∃ t, exec .enable s = .next t ∧ t.life = .running)) ∧
  ∀ (i : Instr) (s t : State), NoDeadlineMiss s → exec i s = .next t →
    (t.life = s.life ∨
      ((∃ cc aid pos off, i = .build cc aid pos off) ∧ s.life = .reset ∧ t.life = .built) ∨
      (i = .cfgSink ∧ s.life = .built ∧ t.life = .sinkReady) ∨
      ((∃ rate, i = .cfgTick rate ∧ rate % 2 ^ 18 = 200000) ∧ s.life = .sinkReady ∧ t.life = .tickConfigured) ∨
      (i = .enable ∧ s.life = .tickConfigured ∧ t.life = .running)) ∧
    lifeRank s.life ≤ lifeRank t.life

/-- The four startup operations, issued in the order of the contract to an unfaulted block in `life = Reset`,
take it to Running with the frame written and nothing else changed (70_reset_and_hazards.md R232). -/
def Obligations.StartupOrderReachesRunning : Prop :=
  ∀ (cc aid pos off : Nat) (s : State), NoFault s → s.life = .reset →
    ∃ s1 s2 s3 s4 : State, ∃ f : Frame,
      exec (.build cc aid pos off) s = .next s1 ∧ exec .cfgSink s1 = .next s2 ∧
      exec (.cfgTick 200000) s2 = .next s3 ∧ exec .enable s3 = .next s4 ∧
      s4 = { s with frame := some f, life := .running }

/-! ### The sample scheduler (42_sample_scheduler.md) -/

/-- R143, R144, R145: a tick in Running emits exactly one sample, `CARRIER_SAMPLES[carrier_position]` in Preamble,
`SYMBOL_SAMPLES[bit][carrier_position]` in Data with the frame's bit below index 121 and bit 0 in the guard
interval, hands it to the sink with SAMPLE_WIDTH, and mirrors it. -/
def Obligations.TickEmitsTheSelectedSample : Prop :=
  ∀ s : State, NoFault s → s.life = .running → s.transmitter.carrierPosition.toNat ≤ 4 →
    (s.transmitter.macroPhase = .data → s.transmitter.bitIndex.toNat < 121 → s.frame.isSome) →
    ∃ v : Sample,
      exec .tick s = .next { s with
        transmitter := advance s.params s.transmitter
        out := s.out ++ [⟨v, s.params.sampleWidth⟩]
        dbg := some v } ∧
      (s.transmitter.macroPhase = .preamble →
        s.params.carrierSamples[s.transmitter.carrierPosition.toNat]? = some v) ∧
      (s.transmitter.macroPhase = .data → s.transmitter.bitIndex.toNat < 121 → ∀ f, s.frame = some f →
        ∃ row, s.params.symbolSamples[(f.getMsbD s.transmitter.bitIndex.toNat).toNat]? = some row ∧
          row[s.transmitter.carrierPosition.toNat]? = some v) ∧
      (s.transmitter.macroPhase = .data → 121 ≤ s.transmitter.bitIndex.toNat →
        ∃ row, s.params.symbolSamples[0]? = some row ∧ row[s.transmitter.carrierPosition.toNat]? = some v)

/-- A tick outside Running raises TICK_BEFORE_ENABLE and writes no sample (42_sample_scheduler.md R142, 60_exceptions.md R201). -/
def Obligations.TickBeforeEnableFaults : Prop :=
  ∀ s : State, NoFault s → s.life ≠ .running →
    exec .tick s = .next { s with fault := some ⟨.tickBeforeEnable, 0x00000000000000000007#80⟩ }

/-- R146: every tick advances `carrier_position` by 1 mod 5, in both macro-phases and at both transitions; no
other operation writes it. -/
def Obligations.EveryTickAdvancesTheCarrier : Prop :=
  (∀ s t : State, NoFault s → s.life = .running → exec .tick s = .next t →
    t.transmitter.carrierPosition.toNat = (s.transmitter.carrierPosition.toNat + 1) % 5) ∧
  (∀ (i : Instr) (s t : State), NoDeadlineMiss s → i ≠ .tick → exec i s = .next t →
    t.transmitter.carrierPosition = s.transmitter.carrierPosition)

/-- R147: in Preamble the counter increments every tick; on reaching 32000 the tick enters Data with the three
counters 0; so a Preamble lasts exactly 32000 ticks. -/
def Obligations.PreambleLastsItsTickBudget : Prop :=
  (∀ s : State, NoFault s → s.life = .running → s.transmitter.carrierPosition.toNat ≤ 4 →
    s.transmitter.macroPhase = .preamble →
    ∃ t, exec .tick s = .next t ∧
      t.transmitter =
        if s.transmitter.preambleTickCount.toNat + 1 = 32000 then
          { macroPhase := .data
            carrierPosition := BitVec.ofNat 3 ((s.transmitter.carrierPosition.toNat + 1) % 5)
            preambleTickCount := 0#15, symbolTickCount := 0#9, bitIndex := 0#7
            guardSymbolCount := s.transmitter.guardSymbolCount }
        else
          { s.transmitter with
            carrierPosition := BitVec.ofNat 3 ((s.transmitter.carrierPosition.toNat + 1) % 5)
            preambleTickCount := s.transmitter.preambleTickCount + 1#15 }) ∧
  (∀ s : State, NoDeadlineMiss s → s.transmitter.macroPhase = .preamble → s.transmitter.preambleTickCount = 0#15 →
    ∀ n, (n < 32000 → (Nat.iterate (advance s.params) n s.transmitter).macroPhase = .preamble) ∧
      (n = 32000 → (Nat.iterate (advance s.params) n s.transmitter).macroPhase = .data))

/-- R148: in Data the symbol counter increments every tick; on reaching 500 it becomes 0 and, below index 121,
`bit_index` increments; so every frame bit is held for exactly 500 ticks, and after bit 120 the index is 121. -/
def Obligations.EachFrameBitIsHeldForItsTicks : Prop :=
  (∀ s : State, NoFault s → s.life = .running → s.transmitter.carrierPosition.toNat ≤ 4 →
    s.transmitter.macroPhase = .data → s.transmitter.bitIndex.toNat < 121 → s.frame.isSome →
    ∃ t, exec .tick s = .next t ∧
      t.transmitter =
        if s.transmitter.symbolTickCount.toNat + 1 = 500 then
          { s.transmitter with
            carrierPosition := BitVec.ofNat 3 ((s.transmitter.carrierPosition.toNat + 1) % 5)
            symbolTickCount := 0#9, bitIndex := s.transmitter.bitIndex + 1#7 }
        else
          { s.transmitter with
            carrierPosition := BitVec.ofNat 3 ((s.transmitter.carrierPosition.toNat + 1) % 5)
            symbolTickCount := s.transmitter.symbolTickCount + 1#9 }) ∧
  (∀ s : State, NoDeadlineMiss s → s.transmitter.macroPhase = .data → s.transmitter.symbolTickCount = 0#9 →
    s.transmitter.bitIndex.toNat < 121 →
    ∀ n, (n < 500 → (Nat.iterate (advance s.params) n s.transmitter).macroPhase = .data ∧
        (Nat.iterate (advance s.params) n s.transmitter).bitIndex = s.transmitter.bitIndex) ∧
      (n = 500 → (Nat.iterate (advance s.params) n s.transmitter).macroPhase = .data ∧
        (Nat.iterate (advance s.params) n s.transmitter).symbolTickCount = 0#9 ∧
        (Nat.iterate (advance s.params) n s.transmitter).bitIndex.toNat = s.transmitter.bitIndex.toNat + 1))

/-- R149: in the guard interval each symbol boundary increments the guard counter; on reaching GUARD_SYMBOLS the
tick returns to Preamble with every counter 0 and the carrier advanced as always; so the guard lasts exactly
GUARD_SYMBOLS symbol-durations; and a configuration with GUARD_SYMBOLS = 0 is refused (by every step, which is
the model's form of the refusal, assumption 22). -/
def Obligations.GuardLastsItsSymbols : Prop :=
  (∀ s : State, NoFault s → s.life = .running → s.transmitter.carrierPosition.toNat ≤ 4 →
    s.transmitter.macroPhase = .data → s.transmitter.bitIndex.toNat = 121 →
    s.transmitter.guardSymbolCount < s.params.guardSymbols →
    ∃ t, exec .tick s = .next t ∧
      t.transmitter =
        if s.transmitter.symbolTickCount.toNat + 1 = 500 then
          if s.transmitter.guardSymbolCount + 1 = s.params.guardSymbols then
            { TransmitterState.reset with
              carrierPosition := BitVec.ofNat 3 ((s.transmitter.carrierPosition.toNat + 1) % 5) }
          else
            { s.transmitter with
              carrierPosition := BitVec.ofNat 3 ((s.transmitter.carrierPosition.toNat + 1) % 5)
              symbolTickCount := 0#9, guardSymbolCount := s.transmitter.guardSymbolCount + 1 }
        else
          { s.transmitter with
            carrierPosition := BitVec.ofNat 3 ((s.transmitter.carrierPosition.toNat + 1) % 5)
            symbolTickCount := s.transmitter.symbolTickCount + 1#9 }) ∧
  (∀ s : State, NoDeadlineMiss s → s.params.guardSymbols ≠ 0 → s.transmitter.macroPhase = .data →
    s.transmitter.symbolTickCount = 0#9 → s.transmitter.bitIndex = 121#7 → s.transmitter.guardSymbolCount = 0 →
    ∀ n, (n < s.params.guardSymbols * 500 → (Nat.iterate (advance s.params) n s.transmitter).macroPhase = .data ∧
        (Nat.iterate (advance s.params) n s.transmitter).bitIndex = 121#7) ∧
      (n = s.params.guardSymbols * 500 → Nat.iterate (advance s.params) n s.transmitter =
        { TransmitterState.reset with
          carrierPosition := (Nat.iterate (advance s.params) n s.transmitter).carrierPosition })) ∧
  (∀ s : State, NoDeadlineMiss s → 0x400 ≤ s.params.genPoly → s.params.genPoly ≤ 0x7FF → s.params.guardSymbols = 0 →
    step s = .refused .guardSymbolsZero)

/-- After a preamble's 32000 ticks and after a symbol's 500, counted from any state in range, the carrier
position is what it was (42_sample_scheduler.md R152): the budgets are multiples of 5, and nothing resets it. -/
def Obligations.CarrierReturnsAtEveryBoundary : Prop :=
  ∀ (s : State) (n : Nat), NoDeadlineMiss s → s.transmitter.carrierPosition.toNat ≤ 4 →
    (Nat.iterate (advance s.params) n s.transmitter).carrierPosition.toNat =
      (s.transmitter.carrierPosition.toNat + n) % 5 ∧
    (n = 32000 ∨ n = 500 →
      (Nat.iterate (advance s.params) n s.transmitter).carrierPosition = s.transmitter.carrierPosition)

/-- R27: no host operation writes the scheduler's registers, and none reads them: with other contents in
them it does all it did. A tick's only observable effects are its sample and the mirror. -/
def Obligations.OnlyTickReadsOrWritesTheTransmitter : Prop :=
  (∀ (i : Instr) (s : State), NoDeadlineMiss s → i ≠ .tick →
    (∀ t, exec i s = .next t → t.transmitter = s.transmitter) ∧
    (∀ u : TransmitterState, exec i (s.setTransmitter u) = Answer.withTransmitter u (exec i s))) ∧
  ∀ s t : State, NoDeadlineMiss s → s.life = .running → exec .tick s = .next t →
    t = { s with transmitter := t.transmitter, out := t.out, dbg := t.dbg }

/-- The frame of every operation: what it may change where it answers a next state (ENC_POS, ENC_ID: the returned
values only; DBG_READ: those or the fault register; CFG_SINK, CFG_TICK, ENABLE: `life` or the fault register;
BUILD: the frame store with `life`, or the fault register; TICK: the scheduler's registers, the output and the
mirror, or the fault register). -/
def Obligations.OperationsLeaveEverythingElse : Prop :=
  ∀ s t : State, NoDeadlineMiss s →
    (∀ d, exec (.encPos d) s = .next t → t = { s with results := t.results }) ∧
    (∀ d, exec (.encId d) s = .next t → t = { s with results := t.results }) ∧
    (exec .dbgRead s = .next t → t = { s with results := t.results, fault := t.fault }) ∧
    (exec .cfgSink s = .next t → t = { s with life := t.life, fault := t.fault }) ∧
    (∀ rate, exec (.cfgTick rate) s = .next t → t = { s with life := t.life, fault := t.fault }) ∧
    (exec .enable s = .next t → t = { s with life := t.life, fault := t.fault }) ∧
    (∀ cc aid pos off, exec (.build cc aid pos off) s = .next t →
      t = { s with frame := t.frame, life := t.life, fault := t.fault }) ∧
    (exec .tick s = .next t →
      t = { s with transmitter := t.transmitter, out := t.out, dbg := t.dbg } ∨
      t = { s with fault := t.fault })

/-- R31: nothing writes the waveform tables or the other parameters. -/
def Obligations.ParametersAreConstant : Prop :=
  ∀ s t : State, NoDeadlineMiss s → step s = .next t → t.params = s.params

/-! ### The whole machine -/

/-- R36: the scheduler's registers are in range, and `carrier_position` is the number of ticks mod 5, at reset and
in every state a step leads to from a state where that holds. -/
def Obligations.StepKeepsTheTransmitterInRange : Prop :=
  (∀ q : Params, TransmitterInRange q (State.resetWith q).transmitter ∧ CarrierCountsTicks (State.resetWith q)) ∧
  ∀ s t : State, NoDeadlineMiss s → TransmitterInRange s.params s.transmitter ∧ CarrierCountsTicks s →
    step s = .next t →
    TransmitterInRange t.params t.transmitter ∧ CarrierCountsTicks t

/-- The startup contract is kept by every step (10_state.md R28 to R30, 70_reset_and_hazards.md R231). -/
def Obligations.StepKeepsTheStartupContract : Prop :=
  ∀ s t : State, NoDeadlineMiss s → StartupConsistent s → step s = .next t → StartupConsistent t

/-- R150: the output written so far, and where the scheduler stands, are those of the closed form, at reset and in
every state a step leads to from a state where that holds. -/
def Obligations.StepKeepsTheOutputClosedForm : Prop :=
  (∀ q : Params, OutputClosedForm (State.resetWith q)) ∧
  ∀ s t : State, NoDeadlineMiss s → OutputClosedForm s → step s = .next t → OutputClosedForm t

/-- Every sink call passes SAMPLE_WIDTH and a sample below `2 ^ SAMPLE_WIDTH` (43_control_interface.md R184). -/
def Obligations.StepKeepsSinkCallsInWidth : Prop :=
  ∀ s t : State, NoDeadlineMiss s → SinkCallsInWidth s → step s = .next t → SinkCallsInWidth t

/-- A recorded fault names the word that raised it, by the table of 60_exceptions.md R201, and is never
DEADLINE_MISS (R204), in every state a step leads to. -/
def Obligations.StepKeepsFaultRecordsTrue : Prop :=
  ∀ s t : State, NoDeadlineMiss s → FaultRecordMatches s → step s = .next t → FaultRecordMatches t

/-- The named premise keeps itself: no operation and no step of the untimed model raises DEADLINE_MISS
(60_exceptions.md R204, 70_reset_and_hazards.md R234). So the premise of the statements, true at reset, holds of every
state the model reaches; of a timed chip it is an assumption (assumption 16). -/
def Obligations.NothingRaisesDeadlineMiss : Prop :=
  (∀ q : Params, NoDeadlineMiss (State.resetWith q)) ∧
  ∀ s t : State, NoDeadlineMiss s →
    (∀ i, exec i s = .next t → NoDeadlineMiss t) ∧ (step s = .next t → NoDeadlineMiss t)

/-- The state after reset meets every invariant above, whatever the parameters, and the model's own
parameters are valid. -/
def Obligations.ResetMeetsTheInvariants : Prop :=
  (∀ q : Params,
    TransmitterInRange q (State.resetWith q).transmitter ∧ CarrierCountsTicks (State.resetWith q) ∧
    StartupConsistent (State.resetWith q) ∧ OutputClosedForm (State.resetWith q) ∧
    StoredFrameShaped (State.resetWith q) ∧ NoDeadlineMiss (State.resetWith q) ∧ FaultRecordMatches (State.resetWith q) ∧
    (ParamsValid q → SinkCallsInWidth (State.resetWith q))) ∧
  ParamsValid State.reset.params

/-- R155: in every state in range that keeps the startup contract, a tick in Running is defined, records no
fault and stays in range, and no step stops the model. -/
def Obligations.ReachedStatesNeverStop : Prop :=
  ∀ s : State, NoDeadlineMiss s → Reached s → ConfigAccepted s.params →
    (NoFault s → s.life = .running →
      ∃ t, exec .tick s = .next t ∧ NoFault t ∧ TransmitterInRange t.params t.transmitter ∧
        (CarrierCountsTicks s → CarrierCountsTicks t)) ∧
    ∃ t, step s = .next t

/-- R153: the output is periodic with period `L`, and after every whole number of cycles the scheduler's
registers, the carrier among them, stand as they stood at the first tick. -/
def Obligations.OutputIsPeriodic : Prop :=
  ∀ (s : State) (f : Frame), NoDeadlineMiss s → OutputClosedForm s → s.frame = some f →
    (∀ (T : Nat) (a b : SinkCall), s.out[T]? = some a → s.out[T + cycleLength s.params]? = some b →
      a.sample = b.sample) ∧
    (s.out.length % cycleLength s.params = 0 → s.transmitter = TransmitterState.reset)

/-- R230: the state after reset. The parameter values are the configuration's (assumptions 2 to 4). -/
def Obligations.ResetState : Prop :=
  ∀ q : Params,
    (State.resetWith q).transmitter = ⟨.preamble, 0#3, 0#15, 0#9, 0#7, 0⟩ ∧
    (State.resetWith q).frame = none ∧ (State.resetWith q).life = .reset ∧ (State.resetWith q).dbg = none ∧
    (State.resetWith q).fault = none ∧ (State.resetWith q).params = q ∧ (State.resetWith q).out = [] ∧
    State.reset = State.resetWith Config.params
end

