-- ==== Sys2Proof/Laws/State.lean ====
section
/-! SUPPORT. What each update of the state does to each field: one lemma per field per update. -/

namespace Sys2Proof.Machine

variable (s : State)

@[simp] theorem setTransmitter_transmitter (t : TransmitterState) : (s.setTransmitter t).transmitter = t := rfl
@[simp] theorem setTransmitter_frame (t : TransmitterState) : (s.setTransmitter t).frame = s.frame := rfl
@[simp] theorem setTransmitter_life (t : TransmitterState) : (s.setTransmitter t).life = s.life := rfl
@[simp] theorem setTransmitter_dbg (t : TransmitterState) : (s.setTransmitter t).dbg = s.dbg := rfl
@[simp] theorem setTransmitter_fault (t : TransmitterState) : (s.setTransmitter t).fault = s.fault := rfl
@[simp] theorem setTransmitter_params (t : TransmitterState) : (s.setTransmitter t).params = s.params := rfl
@[simp] theorem setTransmitter_out (t : TransmitterState) : (s.setTransmitter t).out = s.out := rfl
@[simp] theorem setTransmitter_results (t : TransmitterState) : (s.setTransmitter t).results = s.results := rfl
@[simp] theorem setTransmitter_pending (t : TransmitterState) : (s.setTransmitter t).pending = s.pending := rfl

@[simp] theorem frameWrite_transmitter (f : Frame) : (s.frameWrite f).transmitter = s.transmitter := rfl
@[simp] theorem frameWrite_frame (f : Frame) : (s.frameWrite f).frame = some f := rfl
@[simp] theorem frameWrite_life (f : Frame) : (s.frameWrite f).life = s.life := rfl
@[simp] theorem frameWrite_dbg (f : Frame) : (s.frameWrite f).dbg = s.dbg := rfl
@[simp] theorem frameWrite_fault (f : Frame) : (s.frameWrite f).fault = s.fault := rfl
@[simp] theorem frameWrite_params (f : Frame) : (s.frameWrite f).params = s.params := rfl
@[simp] theorem frameWrite_out (f : Frame) : (s.frameWrite f).out = s.out := rfl
@[simp] theorem frameWrite_results (f : Frame) : (s.frameWrite f).results = s.results := rfl
@[simp] theorem frameWrite_pending (f : Frame) : (s.frameWrite f).pending = s.pending := rfl

@[simp] theorem setLife_transmitter (l : Life) : (s.setLife l).transmitter = s.transmitter := rfl
@[simp] theorem setLife_frame (l : Life) : (s.setLife l).frame = s.frame := rfl
@[simp] theorem setLife_life (l : Life) : (s.setLife l).life = l := rfl
@[simp] theorem setLife_dbg (l : Life) : (s.setLife l).dbg = s.dbg := rfl
@[simp] theorem setLife_fault (l : Life) : (s.setLife l).fault = s.fault := rfl
@[simp] theorem setLife_params (l : Life) : (s.setLife l).params = s.params := rfl
@[simp] theorem setLife_out (l : Life) : (s.setLife l).out = s.out := rfl
@[simp] theorem setLife_results (l : Life) : (s.setLife l).results = s.results := rfl
@[simp] theorem setLife_pending (l : Life) : (s.setLife l).pending = s.pending := rfl

@[simp] theorem setDbg_transmitter (v : Sample) : (s.setDbg v).transmitter = s.transmitter := rfl
@[simp] theorem setDbg_frame (v : Sample) : (s.setDbg v).frame = s.frame := rfl
@[simp] theorem setDbg_life (v : Sample) : (s.setDbg v).life = s.life := rfl
@[simp] theorem setDbg_dbg (v : Sample) : (s.setDbg v).dbg = some v := rfl
@[simp] theorem setDbg_fault (v : Sample) : (s.setDbg v).fault = s.fault := rfl
@[simp] theorem setDbg_params (v : Sample) : (s.setDbg v).params = s.params := rfl
@[simp] theorem setDbg_out (v : Sample) : (s.setDbg v).out = s.out := rfl
@[simp] theorem setDbg_results (v : Sample) : (s.setDbg v).results = s.results := rfl
@[simp] theorem setDbg_pending (v : Sample) : (s.setDbg v).pending = s.pending := rfl

@[simp] theorem sinkWrite_transmitter (v : Sample) (w : Nat) : (s.sinkWrite v w).transmitter = s.transmitter := rfl
@[simp] theorem sinkWrite_frame (v : Sample) (w : Nat) : (s.sinkWrite v w).frame = s.frame := rfl
@[simp] theorem sinkWrite_life (v : Sample) (w : Nat) : (s.sinkWrite v w).life = s.life := rfl
@[simp] theorem sinkWrite_dbg (v : Sample) (w : Nat) : (s.sinkWrite v w).dbg = s.dbg := rfl
@[simp] theorem sinkWrite_fault (v : Sample) (w : Nat) : (s.sinkWrite v w).fault = s.fault := rfl
@[simp] theorem sinkWrite_params (v : Sample) (w : Nat) : (s.sinkWrite v w).params = s.params := rfl
@[simp] theorem sinkWrite_out (v : Sample) (w : Nat) : (s.sinkWrite v w).out = s.out ++ [⟨v, w⟩] := rfl
@[simp] theorem sinkWrite_results (v : Sample) (w : Nat) : (s.sinkWrite v w).results = s.results := rfl
@[simp] theorem sinkWrite_pending (v : Sample) (w : Nat) : (s.sinkWrite v w).pending = s.pending := rfl

@[simp] theorem returnToHost_transmitter (r : HostResult) : (s.returnToHost r).transmitter = s.transmitter := rfl
@[simp] theorem returnToHost_frame (r : HostResult) : (s.returnToHost r).frame = s.frame := rfl
@[simp] theorem returnToHost_life (r : HostResult) : (s.returnToHost r).life = s.life := rfl
@[simp] theorem returnToHost_dbg (r : HostResult) : (s.returnToHost r).dbg = s.dbg := rfl
@[simp] theorem returnToHost_fault (r : HostResult) : (s.returnToHost r).fault = s.fault := rfl
@[simp] theorem returnToHost_params (r : HostResult) : (s.returnToHost r).params = s.params := rfl
@[simp] theorem returnToHost_out (r : HostResult) : (s.returnToHost r).out = s.out := rfl
@[simp] theorem returnToHost_results (r : HostResult) : (s.returnToHost r).results = s.results ++ [r] := rfl
@[simp] theorem returnToHost_pending (r : HostResult) : (s.returnToHost r).pending = s.pending := rfl

@[simp] theorem dropWord_transmitter : (s.dropWord).transmitter = s.transmitter := rfl
@[simp] theorem dropWord_frame : (s.dropWord).frame = s.frame := rfl
@[simp] theorem dropWord_life : (s.dropWord).life = s.life := rfl
@[simp] theorem dropWord_dbg : (s.dropWord).dbg = s.dbg := rfl
@[simp] theorem dropWord_fault : (s.dropWord).fault = s.fault := rfl
@[simp] theorem dropWord_params : (s.dropWord).params = s.params := rfl
@[simp] theorem dropWord_out : (s.dropWord).out = s.out := rfl
@[simp] theorem dropWord_results : (s.dropWord).results = s.results := rfl
@[simp] theorem dropWord_pending : (s.dropWord).pending = s.pending.tail := rfl

@[simp] theorem raiseFault_transmitter (c : FaultCode) (w : Word) : (s.raiseFault c w).transmitter = s.transmitter := rfl
@[simp] theorem raiseFault_frame (c : FaultCode) (w : Word) : (s.raiseFault c w).frame = s.frame := rfl
@[simp] theorem raiseFault_life (c : FaultCode) (w : Word) : (s.raiseFault c w).life = s.life := rfl
@[simp] theorem raiseFault_dbg (c : FaultCode) (w : Word) : (s.raiseFault c w).dbg = s.dbg := rfl
@[simp] theorem raiseFault_fault (c : FaultCode) (w : Word) : (s.raiseFault c w).fault = some ⟨c, w⟩ := rfl
@[simp] theorem raiseFault_params (c : FaultCode) (w : Word) : (s.raiseFault c w).params = s.params := rfl
@[simp] theorem raiseFault_out (c : FaultCode) (w : Word) : (s.raiseFault c w).out = s.out := rfl
@[simp] theorem raiseFault_results (c : FaultCode) (w : Word) : (s.raiseFault c w).results = s.results := rfl
@[simp] theorem raiseFault_pending (c : FaultCode) (w : Word) : (s.raiseFault c w).pending = s.pending := rfl

/-! ### The state after reset -/

variable (q : Params)

@[simp] theorem resetWith_transmitter : (State.resetWith q).transmitter = TransmitterState.reset := rfl
@[simp] theorem resetWith_frame : (State.resetWith q).frame = none := rfl
@[simp] theorem resetWith_life : (State.resetWith q).life = .reset := rfl
@[simp] theorem resetWith_dbg : (State.resetWith q).dbg = none := rfl
@[simp] theorem resetWith_fault : (State.resetWith q).fault = none := rfl
@[simp] theorem resetWith_params : (State.resetWith q).params = q := rfl
@[simp] theorem resetWith_out : (State.resetWith q).out = [] := rfl
@[simp] theorem resetWith_results : (State.resetWith q).results = [] := rfl
@[simp] theorem resetWith_pending : (State.resetWith q).pending = [] := rfl

theorem reset_eq_resetWith : State.reset = State.resetWith Config.params := rfl

end Sys2Proof.Machine
end

