-- ==== Sys2Proof/Laws/Ops.lean ====
section
/-! SUPPORT. What each shared operation of Machine/Ops.lean can do, said once. -/

namespace Sys2Proof.Machine

/-! ### The guards of an operation -/

@[simp] theorem unlessFaulted_of_none {s : State} (h : s.fault = none) (k : State → Answer) :
    unlessFaulted s k = k s := by simp [unlessFaulted, h]

@[simp] theorem unlessFaulted_of_some {s : State} {r : FaultRecord} (h : s.fault = some r) (k : State → Answer) :
    unlessFaulted s k = .next s := by simp [unlessFaulted, h]

/-- A guarded operation either finds a fault and answers the state it found, or runs. -/
theorem unlessFaulted_cases (s : State) (k : State → Answer) :
    ((∃ r, s.fault = some r) ∧ unlessFaulted s k = .next s) ∨ (s.fault = none ∧ unlessFaulted s k = k s) := by
  cases h : s.fault with
  | none => exact .inr ⟨rfl, unlessFaulted_of_none h k⟩
  | some r => exact .inl ⟨⟨r, rfl⟩, unlessFaulted_of_some h k⟩

theorem inSequence_of_eq {need : Life} {s : State} (h : s.life = need) (i : Instr) (k : State → Answer) :
    inSequence need i s k = k s := by simp [inSequence, h]

theorem inSequence_of_ne {need : Life} {s : State} (h : s.life ≠ need) (i : Instr) (k : State → Answer) :
    inSequence need i s k = .next (s.raiseFault .sequence (encode i)) := by simp [inSequence, h]

/-- The lifecycle check either runs the operation, in the state it needs, or raises SEQUENCE. -/
theorem inSequence_cases (need : Life) (i : Instr) (s : State) (k : State → Answer) :
    (s.life = need ∧ inSequence need i s k = k s) ∨
    (s.life ≠ need ∧ inSequence need i s k = .next (s.raiseFault .sequence (encode i))) := by
  by_cases h : s.life = need
  · exact .inl ⟨h, inSequence_of_eq h i k⟩
  · exact .inr ⟨h, inSequence_of_ne h i k⟩

theorem illegalCommand_of_none {s : State} (h : s.fault = none) (w : Word) :
    illegalCommand w s = .next (s.raiseFault .illegalCommand w) := by simp [illegalCommand, h]

/-- An illegal word always answers a next state. -/
theorem illegalCommand_next {w : Word} {s t : State} (h : illegalCommand w s = .next t) :
    t = s ∨ (s.fault = none ∧ t = s.raiseFault .illegalCommand w) := by
  rcases unlessFaulted_cases s (fun s => .next (s.raiseFault .illegalCommand w)) with ⟨-, e⟩ | ⟨hf, e⟩
  · exact .inl (by simpa [illegalCommand, e] using h.symm)
  · exact .inr ⟨hf, by simpa [illegalCommand, e] using h.symm⟩

/-! ### The configuration and the next word -/

theorem configRefusal_eq_none {q : Params} :
    configRefusal q = none ↔ 0x400 ≤ q.genPoly ∧ q.genPoly ≤ 0x7FF ∧ q.guardSymbols ≠ 0 := by
  unfold configRefusal
  split
  · simp; omega
  · split <;> simp <;> omega

theorem nextWord_of_pending {s : State} {w : Word} {ws : List Word} (h : s.pending = w :: ws) :
    s.nextWord = some w := by simp [State.nextWord, h]

theorem nextWord_of_empty {s : State} (h : s.pending = []) :
    s.nextWord = if s.life = .running then some (encode .tick) else none := by simp [State.nextWord, h]

/-! ### The frame store and the waveform tables -/

theorem frameRead_of_some {s : State} {f : Frame} (h : s.frame = some f) (i : Nat) :
    s.frameRead i = some (frameBit f i) := by simp [State.frameRead, h]

theorem frameRead_of_none {s : State} (h : s.frame = none) (i : Nat) : s.frameRead i = none := by
  simp [State.frameRead, h]

/-- FrameRead after FrameWrite gives the frame written (20_memory.md R51, R52). -/
theorem frameRead_frameWrite (s : State) (f : Frame) (i : Nat) :
    (s.frameWrite f).frameRead i = some (frameBit f i) := rfl

theorem carrierRead_of_lt {q : Params} {p : Nat} (h : p < 5) : carrierRead q p = some q.carrierSamples[p] := by
  simp [carrierRead, h]

theorem carrierRead_of_ge {q : Params} {p : Nat} (h : 5 ≤ p) : carrierRead q p = none := by
  simp [carrierRead, h]

theorem symbolRead_of_lt {q : Params} {b : Bool} {p : Nat} (h : p < 5) :
    symbolRead q b p = some (q.symbolSamples[b.toNat]'(by cases b <;> decide))[p] := by
  cases b <;> simp [symbolRead, h]

theorem symbolRead_of_ge {q : Params} {b : Bool} {p : Nat} (h : 5 ≤ p) : symbolRead q b p = none := by
  cases b <;> simp [symbolRead, h]

/-! ### The step -/

/-- Everything a step that answers a next state can have done: it waited, it ran the operation its word
decodes to, or its word was illegal. -/
theorem step_cases {s t : State} (h : step s = .next t) :
    configRefusal s.params = none ∧
    ((s.nextWord = none ∧ t = s) ∨
     (∃ w i, s.nextWord = some w ∧ decode w = .op i ∧ exec i s.dropWord = .next t) ∨
     (∃ w why, s.nextWord = some w ∧ decode w = .illegal why ∧ illegalCommand w s.dropWord = .next t)) := by
  unfold step at h
  cases hc : configRefusal s.params with
  | some r => simp [hc] at h
  | none =>
    refine ⟨rfl, ?_⟩
    cases hw : s.nextWord with
    | none => exact .inl ⟨rfl, by simpa [hc, hw] using h.symm⟩
    | some w =>
      cases hd : decode w with
      | op i => exact .inr (.inl ⟨w, i, rfl, hd, by simpa [hc, hw, hd] using h⟩)
      | illegal why => exact .inr (.inr ⟨w, why, rfl, hd, by simpa [hc, hw, hd] using h⟩)

theorem step_of_op {s : State} {w : Word} {i : Instr} (hc : configRefusal s.params = none)
    (hw : s.nextWord = some w) (hd : decode w = .op i) : step s = exec i s.dropWord := by
  simp [step, hc, hw, hd]

theorem step_of_illegal {s : State} {w : Word} {why : IllegalWord} (hc : configRefusal s.params = none)
    (hw : s.nextWord = some w) (hd : decode w = .illegal why) : step s = illegalCommand w s.dropWord := by
  simp [step, hc, hw, hd]

end Sys2Proof.Machine
end

