-- ==== Sys2Proof/Laws/Scheduler.lean ====
section
/-! SUPPORT. What the tick's parts do: the advance by cases, and which sample is selected. -/

namespace Sys2Proof.Machine

/-! ### The budgets, on the counter before its increment -/

theorem preambleBudgetReached_iff (n : BitVec 15) :
    preambleBudgetReached (n + 1#15) = true ↔ n.toNat + 1 = 32000 := by
  refine Iff.trans decide_eq_true_iff ?_
  have := n.isLt
  rw [BitVec.toNat_add, Config.preambleTicks]
  simp; omega

theorem symbolBudgetReached_iff (n : BitVec 9) :
    symbolBudgetReached (n + 1#9) = true ↔ n.toNat + 1 = 500 := by
  refine Iff.trans decide_eq_true_iff ?_
  have := n.isLt
  rw [BitVec.toNat_add, Config.ticksPerSymbol]
  simp; omega

theorem inFrame_iff (t : TransmitterState) : inFrame t = true ↔ t.bitIndex.toNat < 121 :=
  decide_eq_true_iff

/-- `GUARD_WIDTH` holds every count up to `GUARD_SYMBOLS`. -/
theorem guardSymbols_lt_pow (q : Params) (h : q.guardSymbols ≠ 0) : q.guardSymbols < 2 ^ guardWidth q := by
  simp only [guardWidth, h, if_false]
  exact Nat.lt_log2_self

/-- A count below `GUARD_SYMBOLS` is incremented without a loss of bits. -/
theorem trunc_guard {q : Params} {n : Nat} (h : n < q.guardSymbols) :
    trunc (guardWidth q) (n + 1) = n + 1 := by
  have := guardSymbols_lt_pow q (by omega)
  exact Nat.mod_eq_of_lt (by omega)

/-! ### The advance, by what the tick finds -/

/-- In Preamble, within the budget (42_sample_scheduler.md R147). -/
theorem advance_preamble_within {q : Params} {t : TransmitterState} (hp : t.macroPhase = .preamble)
    (hn : t.preambleTickCount.toNat + 1 ≠ 32000) :
    advance q t = { advanceCarrier t with preambleTickCount := t.preambleTickCount + 1#15 } := by
  have : ¬ preambleBudgetReached (t.preambleTickCount + 1#15) = true := by rwa [preambleBudgetReached_iff]
  simp [advance, hp, advancePreamble, advanceCarrier, this]

/-- In Preamble, at the budget (42_sample_scheduler.md R147). -/
theorem advance_preamble_end {q : Params} {t : TransmitterState} (hp : t.macroPhase = .preamble)
    (hn : t.preambleTickCount.toNat + 1 = 32000) :
    advance q t = ⟨.data, (advanceCarrier t).carrierPosition, 0#15, 0#9, 0#7, t.guardSymbolCount⟩ := by
  have : preambleBudgetReached (t.preambleTickCount + 1#15) = true := by rwa [preambleBudgetReached_iff]
  simp [advance, hp, advancePreamble, advanceCarrier, this]

/-- In Data, within a symbol (42_sample_scheduler.md R148). -/
theorem advance_symbol_within {q : Params} {t : TransmitterState} (hp : t.macroPhase = .data)
    (hn : t.symbolTickCount.toNat + 1 ≠ 500) :
    advance q t = { advanceCarrier t with symbolTickCount := t.symbolTickCount + 1#9 } := by
  have : ¬ symbolBudgetReached (t.symbolTickCount + 1#9) = true := by rwa [symbolBudgetReached_iff]
  simp [advance, hp, advanceData, advanceCarrier, this]

/-- In Data, at the end of a frame bit (42_sample_scheduler.md R148). -/
theorem advance_bit_end {q : Params} {t : TransmitterState} (hp : t.macroPhase = .data)
    (hn : t.symbolTickCount.toNat + 1 = 500) (hb : t.bitIndex.toNat < 121) :
    advance q t = { advanceCarrier t with symbolTickCount := 0#9, bitIndex := t.bitIndex + 1#7 } := by
  have : symbolBudgetReached (t.symbolTickCount + 1#9) = true := by rwa [symbolBudgetReached_iff]
  simp [advance, hp, advanceData, advanceCarrier, this, inFrame, Config.frameBits, hb]

/-- In Data, at the end of a guard symbol that is not the last (42_sample_scheduler.md R149). -/
theorem advance_guard_within {q : Params} {t : TransmitterState} (hp : t.macroPhase = .data)
    (hn : t.symbolTickCount.toNat + 1 = 500) (hb : 121 ≤ t.bitIndex.toNat)
    (hg : t.guardSymbolCount + 1 < q.guardSymbols) :
    advance q t = { advanceCarrier t with symbolTickCount := 0#9, guardSymbolCount := t.guardSymbolCount + 1 } := by
  have h1 : symbolBudgetReached (t.symbolTickCount + 1#9) = true := by rwa [symbolBudgetReached_iff]
  have h2 : trunc (guardWidth q) (t.guardSymbolCount + 1) = t.guardSymbolCount + 1 := trunc_guard (by omega)
  have h3 : t.guardSymbolCount + 1 ≠ q.guardSymbols := by omega
  simp [advance, hp, advanceData, advanceCarrier, h1, inFrame, Config.frameBits, Nat.not_lt.mpr hb,
    advanceGuard, h2, guardBudgetReached, h3]

/-- In Data, at the end of the last guard symbol (42_sample_scheduler.md R149). -/
theorem advance_guard_end {q : Params} {t : TransmitterState} (hp : t.macroPhase = .data)
    (hn : t.symbolTickCount.toNat + 1 = 500) (hb : 121 ≤ t.bitIndex.toNat)
    (hg : t.guardSymbolCount + 1 = q.guardSymbols) :
    advance q t = ⟨.preamble, (advanceCarrier t).carrierPosition, 0#15, 0#9, 0#7, 0⟩ := by
  have h1 : symbolBudgetReached (t.symbolTickCount + 1#9) = true := by rwa [symbolBudgetReached_iff]
  have h2 : trunc (guardWidth q) (t.guardSymbolCount + 1) = t.guardSymbolCount + 1 := trunc_guard (by omega)
  simp [advance, hp, advanceData, advanceCarrier, h1, inFrame, Config.frameBits, Nat.not_lt.mpr hb,
    advanceGuard, guardBudgetReached, hg, hg ▸ h2]

/-- Every tick advances the carrier by one, mod 5 (42_sample_scheduler.md R146). -/
theorem advance_carrierPosition (q : Params) (t : TransmitterState) :
    (advance q t).carrierPosition = BitVec.ofNat 3 ((t.carrierPosition.toNat + 1) % 5) := by
  unfold advance
  split
  · unfold advancePreamble; dsimp only; split <;> rfl
  · unfold advanceData advanceGuard; dsimp only; split
    · split
      · rfl
      · split <;> rfl
    · rfl

/-! ### The output -/

/-- What the output of a sample writes: one sink call and the mirror, and nothing else
(42_sample_scheduler.md R145). -/
theorem emitSample_eq (v : Sample) (s : State) :
    emitSample v s = { s with out := s.out ++ [⟨v, s.params.sampleWidth⟩], dbg := some v } := rfl

/-! ### The selection -/

theorem orRomFault_eq_ok {o : Option Sample} {v : Sample} : orRomFault o = .ok v ↔ o = some v := by
  cases o <;> simp [orRomFault]

/-- In Preamble the carrier table is read and nothing else (42_sample_scheduler.md R143). -/
theorem selectSample_preamble {s : State} (hp : s.transmitter.macroPhase = .preamble) :
    selectSample s = orRomFault (carrierRead s.params s.transmitter.carrierPosition.toNat) := by
  simp [selectSample, hp]

/-- In Data, on a frame bit, the row is the frame's bit (42_sample_scheduler.md R144). -/
theorem selectSample_bit {s : State} {f : Frame} (hp : s.transmitter.macroPhase = .data)
    (hb : s.transmitter.bitIndex.toNat < 121) (hf : s.frame = some f) :
    selectSample s = orRomFault (symbolRead s.params (frameBit f s.transmitter.bitIndex.toNat)
      s.transmitter.carrierPosition.toNat) := by
  simp [selectSample, hp, currentBit, inFrame, Config.frameBits, hb, State.frameRead, hf]

/-- In Data, in the guard interval, the row is 0 and the frame is not read (42_sample_scheduler.md R144). -/
theorem selectSample_guard {s : State} (hp : s.transmitter.macroPhase = .data)
    (hb : 121 ≤ s.transmitter.bitIndex.toNat) :
    selectSample s = orRomFault (symbolRead s.params false s.transmitter.carrierPosition.toNat) := by
  simp [selectSample, hp, currentBit, inFrame, Config.frameBits, Nat.not_lt.mpr hb]

/-- A tick in Running has a sample wherever its table index exists and, on a frame bit, the frame is
written. -/
theorem selectSample_ok {s : State} (hc : s.transmitter.carrierPosition.toNat < 5)
    (hf : s.transmitter.macroPhase = .data → s.transmitter.bitIndex.toNat < 121 → s.frame.isSome) :
    ∃ v, selectSample s = .ok v := by
  cases hp : s.transmitter.macroPhase with
  | preamble => exact ⟨_, by rw [selectSample_preamble hp, carrierRead_of_lt hc]; rfl⟩
  | data =>
    by_cases hb : s.transmitter.bitIndex.toNat < 121
    · obtain ⟨f, hf⟩ := Option.isSome_iff_exists.mp (hf hp hb)
      exact ⟨_, by rw [selectSample_bit hp hb hf, symbolRead_of_lt hc]; rfl⟩
    · exact ⟨_, by rw [selectSample_guard hp (by omega), symbolRead_of_lt hc]; rfl⟩

end Sys2Proof.Machine
end

