-- ==== Sys2Proof/Laws/ClosedForm.lean ====
section
/-! SUPPORT. The closed form of the scheduler's registers follows the advance: one tick takes the registers
before tick `T` to those before tick `T + 1`. -/

namespace Sys2Proof.Machine

theorem cycleLength_eq (q : Params) : cycleLength q = 92500 + q.guardSymbols * 500 := by
  simp only [cycleLength]; omega

/-- The place in the cycle one tick later. -/
theorem succ_mod_cycleLength (q : Params) (T : Nat) :
    (T + 1) % cycleLength q = if T % cycleLength q + 1 = cycleLength q then 0 else T % cycleLength q + 1 := by
  have hL := cycleLength_eq q
  have hu : T % cycleLength q < cycleLength q := Nat.mod_lt _ (by omega)
  rw [Nat.add_mod, Nat.mod_eq_of_lt (by omega : 1 < cycleLength q)]
  split
  · next h => rw [h, Nat.mod_self]
  · exact Nat.mod_eq_of_lt (by omega)

theorem carrier_succ (T : Nat) :
    BitVec.ofNat 3 (((BitVec.ofNat 3 (T % 5)).toNat + 1) % 5) = BitVec.ofNat 3 ((T + 1) % 5) := by
  congr 1; simp; omega

theorem transmitterState_eq {a a' b b' c c' d d' e e' f f'} (h1 : a = a') (h2 : b = b') (h3 : c = c') (h4 : d = d')
    (h5 : e = e') (h6 : f = f') : TransmitterState.mk a b c d e f = ⟨a', b', c', d', e', f'⟩ := by
  subst_vars; rfl

theorem transmitterAt_preamble {q : Params} {T u : Nat} (hu : T % cycleLength q = u) (h : u < 32000) :
    transmitterAt q T = ⟨.preamble, BitVec.ofNat 3 (T % 5), BitVec.ofNat 15 u, 0#9, 0#7, 0⟩ := by
  simp only [transmitterAt, hu, if_pos h]

/-- In Data, `v` counts the ticks since the preamble ended. -/
theorem transmitterAt_data {q : Params} {T v : Nat} (hu : T % cycleLength q = 32000 + v) :
    transmitterAt q T = ⟨.data, BitVec.ofNat 3 (T % 5), 0#15, BitVec.ofNat 9 (v % 500),
      BitVec.ofNat 7 (min (v / 500) 121), v / 500 - 121⟩ := by
  simp only [transmitterAt, hu, Nat.add_sub_cancel_left]
  exact if_neg (by omega)

/-- The advance of one tick, on the closed form (42_sample_scheduler.md R150). -/
theorem advance_transmitterAt {q : Params} (hq : q.guardSymbols ≠ 0) (T : Nat) :
    advance q (transmitterAt q T) = transmitterAt q (T + 1) := by
  have hL := cycleLength_eq q
  have hlt : T % cycleLength q < cycleLength q := Nat.mod_lt _ (by omega)
  have hs := succ_mod_cycleLength q T
  by_cases h1 : T % cycleLength q < 32000
  · rw [transmitterAt_preamble rfl h1]
    rw [if_neg (by omega)] at hs
    by_cases h2 : T % cycleLength q + 1 = 32000
    · rw [advance_preamble_end rfl (by simp; omega), transmitterAt_data (v := 0) (by omega)]
      exact transmitterState_eq rfl (carrier_succ T) rfl rfl rfl rfl
    · rw [advance_preamble_within rfl (by simp; omega), transmitterAt_preamble hs (by omega)]
      exact transmitterState_eq rfl (carrier_succ T) (BitVec.eq_of_toNat_eq (by simp)) rfl rfl rfl
  · obtain ⟨v, hv⟩ : ∃ v, T % cycleLength q = 32000 + v := Nat.exists_eq_add_of_le (by omega)
    rw [transmitterAt_data hv]
    rw [hv] at hs
    by_cases h4 : 32000 + v + 1 = cycleLength q
    · rw [if_pos h4] at hs
      have e : v % 500 + 1 = 500 ∧ 121 ≤ v / 500 ∧ v / 500 - 121 + 1 = q.guardSymbols := by omega
      rw [advance_guard_end rfl (by simp; omega) (by simp; omega) (by exact e.2.2),
        transmitterAt_preamble hs (by omega)]
      exact transmitterState_eq rfl (carrier_succ T) rfl rfl rfl rfl
    · rw [if_neg h4] at hs
      rw [transmitterAt_data (v := v + 1) (by omega)]
      have e : v + 1 < (121 + q.guardSymbols) * 500 := by omega
      by_cases h2 : v % 500 + 1 = 500
      · by_cases h3 : v / 500 < 121
        · rw [advance_bit_end rfl (by simp; omega) (by simp; omega)]
          refine transmitterState_eq rfl (carrier_succ T) rfl ?_ ?_ ?_
          · apply BitVec.eq_of_toNat_eq; simp; omega
          · apply BitVec.eq_of_toNat_eq; simp; omega
          · show v / 500 - 121 = (v + 1) / 500 - 121; omega
        · rw [advance_guard_within rfl (by simp; omega) (by simp; omega) (by simp only; omega)]
          refine transmitterState_eq rfl (carrier_succ T) rfl ?_ ?_ ?_
          · apply BitVec.eq_of_toNat_eq; simp; omega
          · apply BitVec.eq_of_toNat_eq; simp [advanceCarrier]; omega
          · show v / 500 - 121 + 1 = (v + 1) / 500 - 121; omega
      · have h5 : (v + 1) / 500 = v / 500 := by omega
        have hn : (BitVec.ofNat 9 (v % 500)).toNat + 1 ≠ 500 := by simp; omega
        rw [advance_symbol_within rfl hn, h5]
        refine transmitterState_eq rfl (carrier_succ T) rfl ?_ rfl rfl
        apply BitVec.eq_of_toNat_eq; simp; omega

end Sys2Proof.Machine
end

