-- ==== Sys2Proof/Laws/Decode.lean ====
section
/-! SUPPORT. The decoder, one lemma per value of the opcode field: the later files cite these and do not
unfold `decode`. -/

namespace Sys2Proof

variable {w : Word}

theorem decode_of_op1 (h : w.field 3 0 = 1) :
    decode w = whenReservedZero (w.field 79 25) 1 (.encPos (w.field 24 4)) := by simp [decode, h]

theorem decode_of_op2 (h : w.field 3 0 = 2) :
    decode w = whenReservedZero (w.field 79 16) 2 (.encId (w.field 15 4)) := by simp [decode, h]

theorem decode_of_op3 (h : w.field 3 0 = 3) :
    decode w = whenReservedZero (w.field 79 79) 3
      (.build (w.field 13 4) (w.field 37 14) (w.field 58 38) (w.field 78 59)) := by simp [decode, h]

theorem decode_of_op4 (h : w.field 3 0 = 4) : decode w = whenReservedZero (w.field 79 4) 4 .cfgSink := by
  simp [decode, h]

theorem decode_of_op5 (h : w.field 3 0 = 5) :
    decode w = whenReservedZero (w.field 79 22) 5 (.cfgTick (w.field 21 4)) := by simp [decode, h]

theorem decode_of_op6 (h : w.field 3 0 = 6) : decode w = whenReservedZero (w.field 79 4) 6 .enable := by
  simp [decode, h]

theorem decode_of_op7 (h : w.field 3 0 = 7) : decode w = whenReservedZero (w.field 79 4) 7 .tick := by
  simp [decode, h]

theorem decode_of_op8 (h : w.field 3 0 = 8) : decode w = whenReservedZero (w.field 79 4) 8 .dbgRead := by
  simp [decode, h]

theorem decode_of_reservedOp (h : w.field 3 0 = 0 ∨ 9 ≤ w.field 3 0) :
    decode w = .illegal (.reservedOp (w.field 3 0)) := by
  unfold decode
  split
  all_goals first
    | rfl
    | (exfalso; omega)

@[simp] theorem whenReservedZero_zero (op : Nat) (i : Instr) : whenReservedZero 0 op i = .op i := rfl

theorem whenReservedZero_of_ne {r : Nat} (h : r ≠ 0) (op : Nat) (i : Instr) :
    whenReservedZero r op i = .illegal (.reservedPayload op) := by simp [whenReservedZero, h]

theorem whenReservedZero_eq_op {r op : Nat} {i j : Instr} :
    whenReservedZero r op i = .op j ↔ r = 0 ∧ i = j := by
  unfold whenReservedZero; split <;> simp_all

/-- A field read as a slice of bits. -/
theorem field_eq_extract (w : Word) (hi lo : Nat) :
    w.field hi lo = (w.extractLsb' lo (hi + 1 - lo)).toNat := by
  simp [Word.field, bitSlice, Nat.shiftRight_eq_div_pow]

end Sys2Proof
end

