-- ==== Sys2Proof/Laws/Exec.lean ====
section
/-! SUPPORT. What each operation can do, one lemma per meaning: its inversion ("if it answers a next state,
then one of these") which the claims over all operations cite. -/

namespace Sys2Proof.Machine

/-- A recorded fault answers every operation with the state it found (60_exceptions.md R202). -/
theorem exec_of_fault {s : State} {r : FaultRecord} (h : s.fault = some r) (i : Instr) : exec i s = .next s := by
  cases i <;>
    simp only [exec, execEncPos, execEncId, execBuild, execCfgSink, execCfgTick, execEnable, execTick, execDbgRead,
      unlessFaulted_of_some h]

theorem execEncPos_of_none {s : State} (h : s.fault = none) (d : Nat) :
    exec (.encPos d) s =
      .next (s.returnToHost (.positionParity (encodePositionParity s.params.genPoly (positionData d)))) := by
  simp only [exec, execEncPos, unlessFaulted_of_none h]

theorem execEncId_of_none {s : State} (h : s.fault = none) (d : Nat) :
    exec (.encId d) s = .next (s.returnToHost (.idParity (idData d))) := by
  simp only [exec, execEncId, unlessFaulted_of_none h, encodeIdParity]

theorem execBuild_of_none {s : State} (h : s.fault = none) (cc aid pos off : Nat) :
    exec (.build cc aid pos off) s =
      if s.life = .reset then
        .next ((s.frameWrite (buildFrame s.params.genPoly (countryCode cc) (aircraftId aid) (position pos)
          (positionOffset off))).setLife .built)
      else .next (s.raiseFault .sequence (encode (.build cc aid pos off))) := by
  simp only [exec, execBuild, unlessFaulted_of_none h, inSequence]

theorem execCfgSink_of_none {s : State} (h : s.fault = none) :
    exec .cfgSink s =
      if s.life = .built then .next (s.setLife .sinkReady) else .next (s.raiseFault .sequence (encode .cfgSink)) := by
  simp only [exec, execCfgSink, unlessFaulted_of_none h, inSequence]

theorem execCfgTick_of_none {s : State} (h : s.fault = none) (rate : Nat) :
    exec (.cfgTick rate) s =
      if s.life = .sinkReady then
        if (tickRate rate).toNat = 200000 then .next (s.setLife .tickConfigured)
        else .next (s.raiseFault .badConfig (encode (.cfgTick rate)))
      else .next (s.raiseFault .sequence (encode (.cfgTick rate))) := by
  simp only [exec, execCfgTick, unlessFaulted_of_none h, inSequence, Config.sampleRateHz]

theorem execEnable_of_none {s : State} (h : s.fault = none) :
    exec .enable s =
      if s.life = .tickConfigured then .next (s.setLife .running)
      else .next (s.raiseFault .sequence (encode .enable)) := by
  simp only [exec, execEnable, unlessFaulted_of_none h, inSequence]

theorem execDbgRead_of_value {s : State} {v : Sample} (h : s.fault = none) (hd : s.dbg = some v) :
    exec .dbgRead s = .next (s.returnToHost (.debugSample v)) := by
  simp [exec, execDbgRead, h, hd]

theorem execDbgRead_of_noValue {s : State} (h : s.fault = none) (hd : s.dbg = none) :
    exec .dbgRead s = .next (s.raiseFault .debugNoValue (encode .dbgRead)) := by
  simp [exec, execDbgRead, h, hd]

theorem execTick_of_notRunning {s : State} (h : s.fault = none) (hl : s.life ≠ .running) :
    exec .tick s = .next (s.raiseFault .tickBeforeEnable (encode .tick)) := by
  simp [exec, execTick, h, hl]

theorem execTick_of_sample {s : State} {v : Sample} (h : s.fault = none) (hl : s.life = .running)
    (hv : selectSample s = .ok v) :
    exec .tick s = .next ((emitSample v s).setTransmitter (advance s.params s.transmitter)) := by
  simp [exec, execTick, h, hl, hv]

theorem execTick_of_error {s : State} {e : Fault} (h : s.fault = none) (hl : s.life = .running)
    (hv : selectSample s = .error e) : exec .tick s = .fault e := by
  simp [exec, execTick, h, hl, hv]

/-- Everything an operation that answers a next state can have done. -/
inductive Effect (s : State) : Instr → State → Prop
  | faulted {i r} (h : s.fault = some r) : Effect s i s
  | encPos {d} (h : s.fault = none) :
      Effect s (.encPos d)
        (s.returnToHost (.positionParity (encodePositionParity s.params.genPoly (positionData d))))
  | encId {d} (h : s.fault = none) : Effect s (.encId d) (s.returnToHost (.idParity (idData d)))
  | build {cc aid pos off} (h : s.fault = none) (hl : s.life = .reset) :
      Effect s (.build cc aid pos off)
        ((s.frameWrite (buildFrame s.params.genPoly (countryCode cc) (aircraftId aid) (position pos)
          (positionOffset off))).setLife .built)
  | cfgSink (h : s.fault = none) (hl : s.life = .built) : Effect s .cfgSink (s.setLife .sinkReady)
  | cfgTick {rate} (h : s.fault = none) (hl : s.life = .sinkReady) (hr : (tickRate rate).toNat = 200000) :
      Effect s (.cfgTick rate) (s.setLife .tickConfigured)
  | enable (h : s.fault = none) (hl : s.life = .tickConfigured) : Effect s .enable (s.setLife .running)
  | dbgRead {v} (h : s.fault = none) (hd : s.dbg = some v) : Effect s .dbgRead (s.returnToHost (.debugSample v))
  | tick {v} (h : s.fault = none) (hl : s.life = .running) (hv : selectSample s = .ok v) :
      Effect s .tick ((emitSample v s).setTransmitter (advance s.params s.transmitter))
  | buildFault {cc aid pos off} (h : s.fault = none) (hl : s.life ≠ .reset) :
      Effect s (.build cc aid pos off) (s.raiseFault .sequence (encode (.build cc aid pos off)))
  | cfgSinkFault (h : s.fault = none) (hl : s.life ≠ .built) :
      Effect s .cfgSink (s.raiseFault .sequence (encode .cfgSink))
  | cfgTickFault {rate} (h : s.fault = none) (hl : s.life ≠ .sinkReady) :
      Effect s (.cfgTick rate) (s.raiseFault .sequence (encode (.cfgTick rate)))
  | cfgTickRate {rate} (h : s.fault = none) (hl : s.life = .sinkReady) (hr : (tickRate rate).toNat ≠ 200000) :
      Effect s (.cfgTick rate) (s.raiseFault .badConfig (encode (.cfgTick rate)))
  | enableFault (h : s.fault = none) (hl : s.life ≠ .tickConfigured) :
      Effect s .enable (s.raiseFault .sequence (encode .enable))
  | dbgReadFault (h : s.fault = none) (hd : s.dbg = none) :
      Effect s .dbgRead (s.raiseFault .debugNoValue (encode .dbgRead))
  | tickFault (h : s.fault = none) (hl : s.life ≠ .running) :
      Effect s .tick (s.raiseFault .tickBeforeEnable (encode .tick))

/-- The inversion of `exec`: a next state is one of `Effect`'s. -/
theorem exec_effect {i : Instr} {s t : State} (h : exec i s = .next t) : Effect s i t := by
  cases hf : s.fault with
  | some r =>
    rw [exec_of_fault hf] at h; cases h; exact .faulted hf
  | none =>
    cases i with
    | encPos d => rw [execEncPos_of_none hf] at h; cases h; exact .encPos hf
    | encId d => rw [execEncId_of_none hf] at h; cases h; exact .encId hf
    | build cc aid pos off =>
      rw [execBuild_of_none hf] at h
      split at h <;> cases h
      · exact .build hf ‹_›
      · exact .buildFault hf ‹_›
    | cfgSink =>
      rw [execCfgSink_of_none hf] at h
      split at h <;> cases h
      · exact .cfgSink hf ‹_›
      · exact .cfgSinkFault hf ‹_›
    | cfgTick rate =>
      rw [execCfgTick_of_none hf] at h
      split at h
      · split at h <;> cases h
        · exact .cfgTick hf ‹_› ‹_›
        · exact .cfgTickRate hf ‹_› ‹_›
      · cases h; exact .cfgTickFault hf ‹_›
    | enable =>
      rw [execEnable_of_none hf] at h
      split at h <;> cases h
      · exact .enable hf ‹_›
      · exact .enableFault hf ‹_›
    | tick =>
      by_cases hl : s.life = .running
      · cases hv : selectSample s with
        | ok v => rw [execTick_of_sample hf hl hv] at h; cases h; exact .tick hf hl hv
        | error e => rw [execTick_of_error hf hl hv] at h; cases h
      · rw [execTick_of_notRunning hf hl] at h; cases h; exact .tickFault hf hl
    | dbgRead =>
      cases hd : s.dbg with
      | some v => rw [execDbgRead_of_value hf hd] at h; cases h; exact .dbgRead hf hd
      | none => rw [execDbgRead_of_noValue hf hd] at h; cases h; exact .dbgReadFault hf hd

end Sys2Proof.Machine
end

