-- ==== Sys2Proof/Laws/Frame.lean ====
section
/-! SUPPORT. The frame store: a read after a write of the same element gives the value written, and a
write leaves every other element alone. -/

namespace Sys2Proof.Machine

theorem frameBit_frameSet_same (f : Frame) {i : Nat} (h : i < 121) (b : Bool) :
    frameBit (frameSet f i b) i = b := by
  have hk : 120 - i < 121 := by omega
  cases b <;> simp [frameBit, frameSet, Config.frameBits, h, BitVec.getMsbD, hk]

theorem frameBit_frameSet_other (f : Frame) {i j : Nat} (h : j ≠ i) (b : Bool) :
    frameBit (frameSet f i b) j = frameBit f j := by
  unfold frameBit frameSet
  split
  · next hi =>
    simp only [Config.frameBits] at hi
    by_cases hj : j < 121
    · have : ¬ 120 - i = 120 - j := by omega
      cases b <;> simp [BitVec.getMsbD, hj, BitVec.getLsbD_twoPow, this]
      intro _; omega
    · cases b <;> simp [BitVec.getMsbD, hj]
  · rfl

theorem frameSet_outside (f : Frame) {i : Nat} (h : 121 ≤ i) (b : Bool) : frameSet f i b = f := by
  simp [frameSet, Config.frameBits, Nat.not_lt.mpr h]

end Sys2Proof.Machine
end

