-- ==== Sys2Proof/Laws/PerInstr.lean ====
section
/-! SUPPORT. One statement about every operation as syntax, one lemma per constructor. -/

/-- The row of spec/opcode_table.json an operation belongs to: its `op` (the low four bits of the row's
match) and the bit from which on the row's mask is all ones and its match 0 (30_encoding.md R71, R72). -/
def Sys2Proof.Laws.TableRow.row : Sys2Proof.Instr → Nat × Nat
  | .encPos _ => (0x1, 25)
  | .encId _ => (0x2, 16)
  | .build _ _ _ _ => (0x3, 79)
  | .cfgSink => (0x4, 4)
  | .cfgTick _ => (0x5, 22)
  | .enable => (0x6, 4)
  | .tick => (0x7, 4)
  | .dbgRead => (0x8, 4)

/-- An operation's word, whatever its operands, meets its row's mask and match: its `op` field is the
row's and every reserved bit is 0. -/
def Sys2Proof.Laws.TableRow.Statement (i : Sys2Proof.Instr) : Prop :=
  (Sys2Proof.encode i).toNat % 16 = (Sys2Proof.Laws.TableRow.row i).1 ∧
  (Sys2Proof.encode i).toNat < 2 ^ (Sys2Proof.Laws.TableRow.row i).2

namespace Sys2Proof.Laws.TableRow

theorem encPos (d : Nat) : Statement (.encPos d) := by
  simp only [Statement, row, encode, placeField, trunc, BitVec.toNat_ofNat]; omega

theorem encId (d : Nat) : Statement (.encId d) := by
  simp only [Statement, row, encode, placeField, trunc, BitVec.toNat_ofNat]; omega

theorem build (cc aid pos off : Nat) : Statement (.build cc aid pos off) := by
  simp only [Statement, row, encode, placeField, trunc, BitVec.toNat_ofNat]; omega

theorem cfgSink : Statement .cfgSink := by unfold Statement; decide

theorem cfgTick (rate : Nat) : Statement (.cfgTick rate) := by
  simp only [Statement, row, encode, placeField, trunc, BitVec.toNat_ofNat]; omega

theorem enable : Statement .enable := by unfold Statement; decide

theorem tick : Statement .tick := by unfold Statement; decide

theorem dbgRead : Statement .dbgRead := by unfold Statement; decide

end Sys2Proof.Laws.TableRow
end

