-- ==== Sys2Proof/Laws/Safety.lean ====
section
/-! SUPPORT. The small lemmas of the named premise "no deadline was missed" (Safety.lean). -/

namespace Sys2Proof.Machine

/-- A run without a fault is a run without a deadline miss. -/
theorem noDeadlineMiss_of_noFault {s : State} (h : NoFault s) : NoDeadlineMiss s := by
  rw [NoDeadlineMiss, h]; decide

/-- The premise reads the fault register only. -/
theorem noDeadlineMiss_of_fault_eq {s t : State} (h : t.fault = s.fault) (hs : NoDeadlineMiss s) :
    NoDeadlineMiss t := by
  rw [NoDeadlineMiss, h]; exact hs

/-- Raising a fault keeps the premise exactly where the fault is no deadline miss. -/
theorem noDeadlineMiss_raiseFault {s : State} {code : FaultCode} {w : Word} :
    NoDeadlineMiss (s.raiseFault code w) ↔ code ≠ .deadlineMiss := by
  simp [NoDeadlineMiss, State.raiseFault]

/-- A fault record that matches its word is none of a deadline miss (60_exceptions.md R201, R204). -/
theorem noDeadlineMiss_of_faultRecordMatches {s : State} (h : FaultRecordMatches s) : NoDeadlineMiss s := by
  intro hm
  obtain ⟨r, hr, hc⟩ := Option.map_eq_some_iff.mp hm
  have hmatch := h r hr
  rwa [recordMatches, hc] at hmatch

end Sys2Proof.Machine
end

