-- ==== Sys2Proof/Tests/Slice0.lean ====
section
/-! SUPPORT. Tests whose expected results come from the spec's vectors (95_test_vectors.md), the smoke test of
WellFormed, and one witness per statement that has hypotheses. -/

namespace Sys2Proof.Tests

open Sys2Proof Sys2Proof.Machine

/-! ### Helpers -/

/-- A configuration with the spec's default polynomial and guard count, an 8-bit sample and distinct entries. -/
def testParams : Params where
  genPoly := 0x769
  guardSymbols := 23
  sampleWidth := 8
  carrierSamples := #v[10, 11, 12, 13, 14]
  symbolSamples := #v[#v[20, 21, 22, 23, 24], #v[30, 31, 32, 33, 34]]

/-- The frame of V-FRM-1. -/
def testFrame : Frame := 0x1FFFF5952852F9E0697CC297CC8AF3C#121

/-- A freshly reset block with the given lifecycle state and words standing. -/
def blockIn (l : Life) (ws : List Word) : State :=
  { State.resetWith testParams with life := l, pending := ws }

/-- A running block that transmits V-FRM-1, with the scheduler's registers given in the order of the vectors
V-SCH: phase, pos, ptc, stc, bit_index, gsc. -/
def running (phase : MacroPhase) (pos ptc stc bitIndex gsc : Nat) : State :=
  { State.resetWith testParams with
    life := .running, frame := some testFrame
    transmitter := ⟨phase, BitVec.ofNat 3 pos, BitVec.ofNat 15 ptc, BitVec.ofNat 9 stc, BitVec.ofNat 7 bitIndex, gsc⟩ }

/-- A view of an answer's next state. -/
def view {α : Type} (a : Answer) (f : State → α) : Option α :=
  match a with
  | .next s => some (f s)
  | .fault _ => none
  | .refused _ => none

/-- The scheduler's registers after one TICK and the samples written so far. -/
def ticked (s : State) : Option (TransmitterState × List Sample) :=
  view (exec .tick s) fun t => (t.transmitter, t.out.map SinkCall.sample)

/-! ### WellFormed: an ill-formed term for each check, and the largest operand each check admits -/

theorem test_wellFormed_encPos :
    (Instr.encPos (2 ^ 21)).wellFormed = false ∧ (Instr.encPos (2 ^ 21 - 1)).wellFormed = true := by decide
theorem test_wellFormed_encId :
    (Instr.encId (2 ^ 12)).wellFormed = false ∧ (Instr.encId (2 ^ 12 - 1)).wellFormed = true := by decide
theorem test_wellFormed_build_countryCode :
    (Instr.build (2 ^ 10) 0 0 0).wellFormed = false ∧ (Instr.build (2 ^ 10 - 1) 0 0 0).wellFormed = true := by decide
theorem test_wellFormed_build_aircraftId :
    (Instr.build 0 (2 ^ 24) 0 0).wellFormed = false ∧ (Instr.build 0 (2 ^ 24 - 1) 0 0).wellFormed = true := by decide
theorem test_wellFormed_build_position :
    (Instr.build 0 0 (2 ^ 21) 0).wellFormed = false ∧ (Instr.build 0 0 (2 ^ 21 - 1) 0).wellFormed = true := by decide
theorem test_wellFormed_build_positionOffset :
    (Instr.build 0 0 0 (2 ^ 20)).wellFormed = false ∧ (Instr.build 0 0 0 (2 ^ 20 - 1)).wellFormed = true := by decide
theorem test_wellFormed_cfgTick :
    (Instr.cfgTick (2 ^ 18)).wellFormed = false ∧ (Instr.cfgTick (2 ^ 18 - 1)).wellFormed = true := by decide

/-! ### Decoding: words written out bit by bit from 30_encoding.md R71, R72 and section 5 -/

theorem test_decode_encPos : decode 0x000000000000001A5F31#80 = .op (.encPos 0x1A5F3) := by decide
theorem test_decode_encId : decode 0x0000000000000000F3C2#80 = .op (.encId 0xF3C) := by decide
theorem test_decode_build :
    decode 0x052F98697CC297CF2A53#80 = .op (.build 0x2A5 0xA5F3C 0x1A5F3 0x0A5F3) := by decide
theorem test_decode_cfgSink : decode 0x00000000000000000004#80 = .op .cfgSink := by decide
theorem test_decode_cfgTick : decode 0x0000000000000030D405#80 = .op (.cfgTick 200000) := by decide
theorem test_decode_enable : decode 0x00000000000000000006#80 = .op .enable := by decide
theorem test_decode_tick : decode 0x00000000000000000007#80 = .op .tick := by decide
theorem test_decode_dbgRead : decode 0x00000000000000000008#80 = .op .dbgRead := by decide
/-- V-CTL-4, V-CTL-8, V-BCH-8, V-FRM-6: reserved op, reserved payload bits. -/
theorem test_decode_illegal :
    decode 0x00000000000000000009#80 = .illegal (.reservedOp 9) ∧
    decode 0x0000000000000000000F#80 = .illegal (.reservedOp 15) ∧
    decode 0x00000000000000000000#80 = .illegal (.reservedOp 0) ∧
    decode 0x00000000000000000014#80 = .illegal (.reservedPayload 4) ∧
    decode 0x00000000000002000001#80 = .illegal (.reservedPayload 1) ∧
    decode 0x80000000000000000003#80 = .illegal (.reservedPayload 3) := by decide
/-- The encoded examples of 30_encoding.md section 5, and V-FRM-4's truncation. -/
theorem test_encode :
    encode (.encPos 0x1A5F3) = 0x000000000000001A5F31#80 ∧ encode (.encId 0xF3C) = 0x0000000000000000F3C2#80 ∧
    encode (.build 0x2A5 0xA5F3C 0x1A5F3 0x0A5F3) = 0x052F98697CC297CF2A53#80 ∧
    encode (.build 0x12A5 0x7A0A5F3C 0x3E1A5F3 0x10A5F3) = 0x052F98697CC297CF2A53#80 ∧
    encode (.cfgTick 100000) = 0x00000000000000186A05#80 ∧ encode .tick = 0x00000000000000000007#80 := by decide
theorem test_decodeTableWord :
    decodeTableWord 80 0x1A5F31 = some (.encPos 0x1A5F3) ∧ decodeTableWord 80 0x9 = none := by decide

/-! ### The assembler (30_encoding.md R75, R76) -/

theorem test_parse_build :
    parseLine "        BUILD    0x2A5, 0xA5F3C, 0x1A5F3, 0x0A5F3   ; 0x052F98697CC297CF2A53".toList =
      .line (.op (.build 0x2A5 0xA5F3C 0x1A5F3 0x0A5F3)) := by decide +kernel
theorem test_parse_ticks :
    parseLine "TICK*7 ; seven".toList = .line (.ticks 7) ∧ parseLine "CFG_TICK 200000".toList = .line (.op (.cfgTick 200000)) ∧
    parseLine "  ; only a comment".toList = .empty ∧ parseLine "CFG_SINK 1".toList = .malformed := by decide +kernel
/-- P1's words: BOOT is the four startup words. -/
theorem test_assemble_boot :
    assemble [.boot 0x2A5 0xA5F3C 0x1A5F3 0x0A5F3, .ticks 2] =
      [0x052F98697CC297CF2A53#80, 0x04#80, 0x30D405#80, 0x06#80, 0x07#80, 0x07#80] := by decide

/-! ### The encoder -/

/-- V-BCH-1. -/
theorem test_encPos :
    view (exec (.encPos 0x1A5F3) (blockIn .reset [])) State.results = some [.positionParity 0x08A#10] := by
  decide +kernel
/-- V-BCH-4: corner cases and spot values. -/
theorem test_encodePositionParity :
    encodePositionParity 0x769 0#21 = 0#10 ∧ encodePositionParity 0x769 1#21 = 0x368#10 ∧
    encodePositionParity 0x769 0x100000#21 = 0x343#10 ∧ encodePositionParity 0x769 0x1FFFFF#21 = 0x35A#10 := by
  decide +kernel
/-- V-BCH-2: the full register of the trace, kept wider than 10 bits. -/
theorem test_bchRegister_wide : bchRegister 0x769 (positionBits 0x1A5F3#21) = 0x697CC8A := by decide +kernel
/-- V-BCH-7. -/
theorem test_encId :
    view (exec (.encId 0xFFF) (blockIn .running [])) State.results = some [.idParity 0xFFF#12] := by decide

/-! ### The frame builder -/

/-- V-FRM-1, through BUILD. -/
theorem test_build_frame :
    view (exec (.build 0x2A5 0xA5F3C 0x1A5F3 0x0A5F3) (blockIn .reset [])) (fun t => (t.frame, t.life)) =
      some (some 0x1FFFF5952852F9E0697CC297CC8AF3C#121, .built) := by decide +kernel
/-- V-FRM-6 and V-CTL-6: a second BUILD. -/
theorem test_build_twice :
    view (exec (.build 0 0 0 0) (running .preamble 0 0 0 0 0)) (fun t => (t.frame, t.fault)) =
      some (some testFrame, some ⟨.sequence, 0x03#80⟩) := by decide
/-- V-FRM-2, V-FRM-3, V-FRM-5. -/
theorem test_buildFrame :
    buildFrame 0x769 0 0 0 0 = 0x1FFFF58000000000000000000000000#121 ∧
    buildFrame 0x769 0x3FF#10 0xFFFFFF#24 0x1FFFFF#21 0xFFFFF#20 = 0x1FFFF59FFFFFFFFFFFFFFFFFFF5AFFF#121 ∧
    buildFrame 0x769 1 1 1 1 = 0x1FFFF58008000008000040000768001#121 := by decide +kernel
/-- V-FRM-1: `frame[17] = 0`, `frame[24] = 1`, `frame[120] = 0`. -/
theorem test_frameBit :
    frameBit testFrame 17 = false ∧ frameBit testFrame 24 = true ∧ frameBit testFrame 120 = false := by decide

/-! ### The control interface -/

theorem test_cfgSink : view (exec .cfgSink (blockIn .built [])) State.life = some .sinkReady := by decide
/-- V-CTL-10: a repeated CFG_SINK. -/
theorem test_cfgSink_twice :
    view (exec .cfgSink (blockIn .sinkReady [])) (fun t => (t.life, t.fault)) =
      some (.sinkReady, some ⟨.sequence, 0x04#80⟩) := by decide
/-- V-CTL-3 and P5. -/
theorem test_cfgTick_badRate :
    view (exec (.cfgTick 100000) (blockIn .sinkReady [])) (fun t => (t.life, t.fault)) =
      some (.sinkReady, some ⟨.badConfig, 0x186A05#80⟩) := by decide
/-- V-CTL-9. -/
theorem test_cfgTick_order :
    view (exec (.cfgTick 100000) (blockIn .reset [])) State.fault = some (some ⟨.sequence, 0x186A05#80⟩) := by decide
theorem test_enable : view (exec .enable (blockIn .tickConfigured [])) State.life = some .running := by decide
/-- V-CTL-1. -/
theorem test_enable_first :
    view (exec .enable (blockIn .reset [])) (fun t => (t.life, t.fault)) =
      some (.reset, some ⟨.sequence, 0x06#80⟩) := by decide
/-- V-CTL-2. -/
theorem test_dbgRead_noValue :
    view (exec .dbgRead (blockIn .reset [])) (fun t => (t.results, t.fault)) =
      some ([], some ⟨.debugNoValue, 0x08#80⟩) := by decide
theorem test_dbgRead :
    view (exec .dbgRead { running .preamble 2 7 0 0 0 with dbg := some 11 }) State.results =
      some [.debugSample 11] := by decide

/-! ### The scheduler -/

/-- V-SCH-9: `carrier_position` is NOT forced to 0 at the Data to Preamble transition. -/
theorem test_tick_guardEnd :
    ticked (running .data 3 0 499 121 22) = some (⟨.preamble, 4#3, 0#15, 0#9, 0#7, 0⟩, [23]) := by decide
/-- V-SCH-10: nor at the Preamble to Data transition; the 32000th tick emits carrier. -/
theorem test_tick_preambleEnd :
    ticked (running .preamble 2 31999 0 0 0) = some (⟨.data, 3#3, 0#15, 0#9, 0#7, 0⟩, [12]) := by decide
/-- 00_scope.md R6: 160 ms × 200,000 Hz / 1000, and 200,000 / 400; 10_state.md section 1: GUARD_WIDTH is 5 for 23. -/
theorem test_budgets :
    Config.preambleMs * Config.sampleRateHz / 1000 = Config.preambleTicks ∧
    Config.sampleRateHz / Config.symbolRateHz = Config.ticksPerSymbol ∧ guardWidth testParams = 5 := by decide
/-- 42_sample_scheduler.md R151: the default cycle is 104000 ticks; V-SCH-7 and V-SCH-8 in the closed form. -/
theorem test_closedForm :
    cycleLength testParams = 104000 ∧
    transmitterAt testParams 103999 = ⟨.data, 4#3, 0#15, 499#9, 121#7, 22⟩ ∧
    transmitterAt testParams 104000 = TransmitterState.reset ∧
    sampleAt testParams testFrame 40500 = some 20 ∧ sampleAt testParams testFrame 44003 = some 33 := by
  decide +kernel

/-! ### The step -/

/-- V-CTL-8: an illegal word. -/
theorem test_step_illegal :
    view (step (blockIn .built [0x14#80])) (fun t => (t.life, t.fault, t.pending)) =
      some (.built, some ⟨.illegalCommand, 0x14#80⟩, []) := by decide
/-- V-CTL-11 and P4: after a fault nothing happens. -/
theorem test_step_faulted :
    view (step { blockIn .reset [0x07#80] with fault := some ⟨.sequence, 0x06#80⟩ }) (fun t => (t.out, t.fault)) =
      some ([], some ⟨.sequence, 0x06#80⟩) := by decide
/-- 43_control_interface.md R185 (no word standing: the tick source ticks, while Running only) and V-SCH-1. -/
theorem test_step_tickSource :
    view (step (running .preamble 0 0 0 0 0)) (fun t => (t.out, t.dbg)) = some ([⟨10, 8⟩], some 10) ∧
    view (step (blockIn .tickConfigured [])) (fun t => (t.out, t.life)) = some ([], .tickConfigured) := by decide
/-- V-SCH-14: refused configurations. -/
theorem test_step_refused :
    configRefusal { testParams with guardSymbols := 0 } = some .guardSymbolsZero ∧
    configRefusal { testParams with genPoly := 0x3FF } = some .genPolyOutOfRange ∧
    configRefusal { testParams with genPoly := 0x800 } = some .genPolyOutOfRange ∧
    configRefusal testParams = none := by decide
/-- A word placed at reset is the first operation to run. -/
theorem test_withFetchWord :
    view (step (State.reset.withFetchWord 80 0x03)) (fun t => (t.life, t.fault)) = some (.built, none) := by
  decide +kernel

/-! ### Witnesses: the hypotheses of each statement, met together -/

theorem witness_configAccepted : ConfigAccepted testParams ∧ ParamsValid testParams := by decide
theorem witness_EncodedOperationsDecodeToThemselves :
    (Instr.build 0x3FF 0xFFFFFF 0x1FFFFF 0xFFFFF).wellFormed = true := by decide
theorem witness_LegalWordsAreTheEncodingOfTheirOperation : decode 0x0FFF2#80 = .op (.encId 0xFFF) := by decide
/-- One word per clause, at the last legal bit of each payload. -/
theorem witness_DecodingIsTheReservedBitRule :
    decode 0x1FFFFF1#80 = .op (.encPos 0x1FFFFF) ∧ decode 0xFFF2#80 = .op (.encId 0xFFF) ∧
    decode 0x7FFFFFFFFFFFFFFFFFF3#80 = .op (.build 0x3FF 0xFFFFFF 0x1FFFFF 0xFFFFF) ∧
    decode 0x3FFFF5#80 = .op (.cfgTick 0x3FFFF) ∧ decode 0x400005#80 = .illegal (.reservedPayload 5) ∧
    decode 0x10002#80 = .illegal (.reservedPayload 2) ∧ decode 0x80000000000000000008#80 = .illegal (.reservedPayload 8) := by
  decide
theorem witness_WideOperandsActAsTheirLowBits : NoDeadlineMiss (blockIn .reset []) := by decide
/-- A state of each kind: with a refused configuration, and with an accepted one. -/
theorem witness_OnlyBadConfigurationsAreRefused :
    NoDeadlineMiss { blockIn .reset [] with params := { testParams with guardSymbols := 0 } } ∧
    NoDeadlineMiss (blockIn .reset []) := by decide
/-- The premise, with another fault recorded and without one, and what it excludes; and a step under it that faults. -/
theorem witness_NothingRaisesDeadlineMiss :
    NoDeadlineMiss { blockIn .built [0x04#80] with fault := some ⟨.badConfig, 0x05#80⟩ } ∧
    ¬ NoDeadlineMiss { running .preamble 0 0 0 0 0 with fault := some ⟨.deadlineMiss, 0x07#80⟩ } ∧
    NoDeadlineMiss (blockIn .reset [0x06#80]) ∧
    view (step (blockIn .reset [0x06#80])) State.fault = some (some ⟨.sequence, 0x06#80⟩) ∧
    view (exec .enable (blockIn .reset [])) State.fault = some (some ⟨.sequence, 0x06#80⟩) := by decide
theorem witness_BuildTruncatesItsInputs :
    NoDeadlineMiss (blockIn .reset []) ∧ NoFault (blockIn .reset []) ∧ (blockIn .reset []).life = .reset := by decide
theorem witness_StepRunsTheDecodedOperation :
    NoDeadlineMiss (blockIn .reset [0x03#80]) ∧ NoDeadlineMiss (running .preamble 0 0 0 0 0) ∧
    NoDeadlineMiss (blockIn .reset []) ∧
    ConfigAccepted (blockIn .reset [0x03#80]).params ∧ (blockIn .reset [0x03#80]).pending = [0x03#80] ∧
    decode 0x03#80 = .op (.build 0 0 0 0) ∧
    (running .preamble 0 0 0 0 0).pending = [] ∧ (running .preamble 0 0 0 0 0).life = .running ∧
    (blockIn .reset []).pending = [] ∧ (blockIn .reset []).life ≠ .running := by decide
theorem witness_RecordedFaultStopsTheBlock :
    ({ blockIn .built [0x04#80] with fault := some ⟨.badConfig, 0x05#80⟩ } : State).fault =
      some ⟨.badConfig, 0x05#80⟩ ∧
    ({ running .preamble 0 0 0 0 0 with fault := some ⟨.deadlineMiss, 0x07#80⟩ } : State).fault =
      some ⟨.deadlineMiss, 0x07#80⟩ := by decide
/-- One state and word per clause. -/
theorem witness_FirstFaultInPriorityIsReported :
    (blockIn .reset [0x09#80]).nextWord = some 0x09#80 ∧ decode 0x09#80 = .illegal (.reservedOp 9) ∧
    decode 0x186A05#80 = .op (.cfgTick 100000) ∧ (blockIn .reset []).life ≠ .sinkReady ∧
    (blockIn .sinkReady [0x186A05#80]).life = .sinkReady ∧ (100000 : Nat) ≠ 200000 ∧
    decode 0x04#80 = .op .cfgSink ∧ decode 0x06#80 = .op .enable ∧ decode 0x07#80 = .op .tick ∧
    decode 0x08#80 = .op .dbgRead ∧ (blockIn .reset []).dbg = none := by decide
theorem witness_EncPosReturnsThePositionParity :
    NoFault (blockIn .reset []) ∧ 0x1FFFFF < 2 ^ 21 ∧ (0x2000001#80 : Word).extractLsb' 0 4 = 0x1#4 ∧
    (0x2000001#80 : Word).extractLsb' 25 55 ≠ 0#55 := by decide
theorem witness_EncIdReturnsItsOperand :
    NoFault (blockIn .running []) ∧ 0xFFF < 2 ^ 12 ∧ (0x10002#80 : Word).extractLsb' 0 4 = 0x2#4 ∧
    (0x10002#80 : Word).extractLsb' 16 64 ≠ 0#64 := by decide
theorem witness_PositionParityIsDeterministic :
    NoFault (blockIn .reset []) ∧ NoFault (running .data 4 0 10 5 0) ∧
    (blockIn .reset []).params.genPoly = (running .data 4 0 10 5 0).params.genPoly := by decide
/-- Both ends of the range of `GEN_POLY`, and the default (for the closed form and the codeword statement). -/
theorem witness_PositionParityClosedForm :
    (0x400 : Nat) ≤ 0x400 ∧ (0x400 : Nat) ≤ 0x769 ∧ (0x769 : Nat) ≤ 0x7FF ∧ (0x7FF : Nat) ≤ 0x7FF := by decide
theorem witness_PositionParityIgnoresTheRegisterWidth : (10 : Nat) ≤ 10 ∧ (10 : Nat) ≤ 64 := by decide
theorem witness_BuildWritesTheFrame :
    NoFault (blockIn .reset []) ∧ (blockIn .reset []).life = .reset ∧ NoFault (blockIn .built []) ∧
    (blockIn .built []).life ≠ .reset ∧ (0x80000000000000000003#80 : Word).extractLsb' 0 4 = 0x3#4 ∧
    (0x80000000000000000003#80 : Word).getLsbD 79 = true := by decide
theorem witness_PutFieldPlacesMsbFirst : 109 + 12 ≤ 121 ∧ 0 < 12 ∧ 108 < 121 ∧ (108 < 109 ∨ 109 + 12 ≤ 108) := by decide
theorem witness_CfgSinkTakesBuiltToSinkReady :
    NoFault (blockIn .built []) ∧ (blockIn .built []).life = .built ∧ (blockIn .sinkReady []).life ≠ .built ∧
    (0x14#80 : Word).extractLsb' 0 4 = 0x4#4 ∧ (0x14#80 : Word).extractLsb' 4 76 ≠ 0#76 := by decide
theorem witness_CfgTickTakesSinkReadyToTickConfigured :
    NoFault (blockIn .sinkReady []) ∧ (blockIn .sinkReady []).life = .sinkReady ∧ 0 < 2 ^ 18 ∧ (0 : Nat) ≠ 200000 ∧
    (blockIn .tickConfigured []).life ≠ .sinkReady ∧ (0x400005#80 : Word).extractLsb' 0 4 = 0x5#4 ∧
    (0x400005#80 : Word).extractLsb' 22 58 ≠ 0#58 := by decide
theorem witness_EnableTakesTickConfiguredToRunning :
    NoFault (blockIn .tickConfigured []) ∧ (blockIn .tickConfigured []).life = .tickConfigured ∧
    (blockIn .reset []).life ≠ .tickConfigured ∧ (0x16#80 : Word).extractLsb' 0 4 = 0x6#4 ∧
    (0x16#80 : Word).extractLsb' 4 76 ≠ 0#76 ∧
    NoDeadlineMiss (running .preamble 0 0 0 0 0) ∧ (running .preamble 0 0 0 0 0).life = .running ∧
    view (exec .tick (running .preamble 0 0 0 0 0)) State.life = some .running := by decide
theorem witness_DbgReadReturnsTheMirror :
    NoFault { running .preamble 2 7 0 0 0 with dbg := some 11 } ∧
    ({ running .preamble 2 7 0 0 0 with dbg := some 11 } : State).dbg = some 11 ∧ (blockIn .reset []).dbg = none ∧
    (0x18#80 : Word).extractLsb' 0 4 = 0x8#4 ∧ (0x18#80 : Word).extractLsb' 4 76 ≠ 0#76 := by decide
/-- One step of `life` per startup operation. -/
theorem witness_LifeAdvancesOnlyInTheStartupOrder :
    NoFault (blockIn .reset []) ∧ NoDeadlineMiss (blockIn .reset []) ∧ NoDeadlineMiss (blockIn .built []) ∧
    NoDeadlineMiss (blockIn .sinkReady []) ∧ NoDeadlineMiss (blockIn .tickConfigured []) ∧
    view (exec (.build 0 0 0 0) (blockIn .reset [])) State.life = some .built ∧
    view (exec .cfgSink (blockIn .built [])) State.life = some .sinkReady ∧
    view (exec (.cfgTick 200000) (blockIn .sinkReady [])) State.life = some .tickConfigured ∧
    view (exec .enable (blockIn .tickConfigured [])) State.life = some .running ∧
    view (exec .dbgRead (blockIn .built [])) State.life = some .built := by decide
/-- A tick in Preamble, one on frame bit 120 (V-SCH-11), one in the guard interval; for the statements of
R143 to R149. -/
theorem witness_TickEmitsTheSelectedSample :
    NoFault (running .data 1 0 499 120 0) ∧ (running .data 1 0 499 120 0).life = .running ∧
    (running .data 4 0 499 120 0).transmitter.carrierPosition.toNat ≤ 4 ∧
    (running .data 1 0 499 120 0).frame.isSome = true ∧
    ticked (running .data 1 0 499 120 0) = some (⟨.data, 2#3, 0#15, 0#9, 121#7, 0⟩, [21]) ∧
    ticked (running .data 4 0 10 5 0) = some (⟨.data, 0#3, 0#15, 11#9, 5#7, 0⟩, [34]) ∧
    ticked (running .preamble 4 0 0 0 0) = some (⟨.preamble, 0#3, 1#15, 0#9, 0#7, 0⟩, [14]) ∧
    ticked (running .data 0 0 499 121 0) = some (⟨.data, 1#3, 0#15, 0#9, 121#7, 1⟩, [20]) := by decide
theorem witness_TickBeforeEnableFaults :
    NoFault (blockIn .tickConfigured []) ∧ (blockIn .tickConfigured []).life ≠ .running := by decide
theorem witness_PreambleLastsItsTickBudget :
    NoDeadlineMiss (running .preamble 0 0 0 0 0) ∧
    (running .preamble 0 0 0 0 0).transmitter.macroPhase = .preamble ∧
    (running .preamble 0 0 0 0 0).transmitter.preambleTickCount = 0#15 ∧
    (running .preamble 2 31999 0 0 0).transmitter.preambleTickCount.toNat + 1 = 32000 := by decide
theorem witness_EachFrameBitIsHeldForItsTicks :
    NoDeadlineMiss (running .data 0 0 0 120 0) ∧
    (running .data 0 0 0 120 0).transmitter.macroPhase = .data ∧
    (running .data 0 0 0 120 0).transmitter.symbolTickCount = 0#9 ∧
    (running .data 0 0 0 120 0).transmitter.bitIndex.toNat < 121 ∧ (running .data 0 0 0 120 0).frame.isSome = true := by
  decide
theorem witness_GuardLastsItsSymbols :
    NoDeadlineMiss (running .data 0 0 0 121 0) ∧ (running .data 0 0 0 121 0).transmitter.macroPhase = .data ∧
    (running .data 0 0 0 121 0).transmitter.symbolTickCount = 0#9 ∧
    NoDeadlineMiss { blockIn .reset [] with params := { testParams with guardSymbols := 0 } } ∧
    (running .data 0 0 0 121 0).params.guardSymbols ≠ 0 ∧ (running .data 0 0 0 121 0).transmitter.bitIndex = 121#7 ∧
    (running .data 0 0 0 121 0).transmitter.guardSymbolCount = 0 ∧
    (running .data 3 0 499 121 22).transmitter.guardSymbolCount < testParams.guardSymbols ∧
    ({ testParams with guardSymbols := 0 } : Params).guardSymbols = 0 := by decide
theorem witness_CarrierReturnsAtEveryBoundary :
    NoDeadlineMiss (running .preamble 4 0 0 0 0) ∧
    (running .preamble 4 0 0 0 0).transmitter.carrierPosition.toNat ≤ 4 := by decide
theorem witness_OnlyTickReadsOrWritesTheTransmitter :
    Instr.dbgRead ≠ Instr.tick ∧ NoDeadlineMiss (blockIn .built []) ∧
    view (exec .cfgSink (blockIn .built [])) State.life = some .sinkReady ∧
    NoDeadlineMiss (running .data 4 0 10 5 0) ∧ (running .data 4 0 10 5 0).life = .running ∧
    view (exec .tick (running .data 4 0 10 5 0)) State.life = some .running := by decide
/-- A state before BUILD, with its word standing, meets every invariant, and its step answers a next state;
for the statements "a step keeps". -/
theorem witness_steps_before_build :
    NoDeadlineMiss (blockIn .reset [0x03#80]) ∧
    TransmitterInRange testParams (blockIn .reset [0x03#80]).transmitter ∧
    CarrierCountsTicks (blockIn .reset [0x03#80]) ∧ StartupConsistent (blockIn .reset [0x03#80]) ∧
    SinkCallsInWidth (blockIn .reset [0x03#80]) ∧
    view (step (blockIn .reset [0x03#80])) State.life = some .built := by decide
theorem witness_StepKeepsTheStoredFrameShaped :
    NoDeadlineMiss (running .preamble 0 0 0 0 0) ∧
    (view (step (running .preamble 0 0 0 0 0)) State.frame).isSome = true ∧
    StoredFrameShaped (running .preamble 0 0 0 0 0) := by
  refine ⟨by decide, by decide, fun f hf => ?_⟩
  obtain rfl : testFrame = f := Option.some.inj hf
  decide +kernel
theorem witness_StepKeepsTheOutputClosedForm :
    NoDeadlineMiss (running .preamble 0 0 0 0 0) ∧
    (view (step (running .preamble 0 0 0 0 0)) State.life).isSome = true ∧
    OutputClosedForm (running .preamble 0 0 0 0 0) :=
  ⟨by decide, by decide, fun h => absurd rfl h, fun _ => rfl, by decide +kernel, fun _ _ _ _ h => by cases h⟩
theorem witness_StepKeepsFaultRecordsTrue :
    NoDeadlineMiss { blockIn .reset [] with fault := some ⟨.sequence, 0x06#80⟩ } ∧
    (view (step { blockIn .reset [] with fault := some ⟨.sequence, 0x06#80⟩ }) State.life).isSome = true ∧
    FaultRecordMatches { blockIn .reset [] with fault := some ⟨.sequence, 0x06#80⟩ } := by
  refine ⟨by decide, by decide, fun r hr => ?_⟩
  obtain rfl : (⟨.sequence, 0x06#80⟩ : FaultRecord) = r := Option.some.inj hr
  exact .inr (.inr (.inr (by decide)))
theorem witness_WrittenFrameNeverChanges :
    NoDeadlineMiss (running .preamble 0 0 0 0 0) ∧
    StartupConsistent (running .preamble 0 0 0 0 0) ∧ (running .preamble 0 0 0 0 0).frame = some testFrame ∧
    view (step (running .preamble 0 0 0 0 0)) State.frame = some (some testFrame) := by decide
theorem witness_ReachedStatesNeverStop :
    NoDeadlineMiss (running .data 4 0 499 121 22) ∧
    Reached (running .data 4 0 499 121 22) ∧ ConfigAccepted (running .data 4 0 499 121 22).params ∧
    NoFault (running .data 4 0 499 121 22) ∧ CarrierCountsTicks (running .preamble 0 0 0 0 0) ∧
    Reached (running .preamble 0 0 0 0 0) := by decide
/-- The closed form has a sample for every tick. -/
theorem sampleAt_isSome (T : Nat) : ∃ v, sampleAt testParams testFrame T = some v := by
  have h : T % 5 < 5 := Nat.mod_lt _ (by decide)
  simp only [sampleAt]
  split
  · exact ⟨_, Vector.getElem?_eq_getElem h⟩
  · cases (if (T % cycleLength testParams - 32000) / 500 < 121 then
      frameBit testFrame ((T % cycleLength testParams - 32000) / 500) else false)
    · exact ⟨_, Vector.getElem?_eq_getElem (xs := #v[20, 21, 22, 23, 24]) h⟩
    · exact ⟨_, Vector.getElem?_eq_getElem (xs := #v[30, 31, 32, 33, 34]) h⟩

/-- A block that has written one whole cycle and one sample more, as the closed form has it. -/
def oneCycleLater : State :=
  { running .preamble 1 1 0 0 0 with
    out := (List.range 104001).map fun T => ⟨(sampleAt testParams testFrame T).getD 0, 8⟩ }

/-- Both `out[0]` and `out[L]` are written; and a whole number of cycles has passed in the block's first state. -/
theorem witness_OutputIsPeriodic :
    NoDeadlineMiss oneCycleLater ∧ OutputClosedForm oneCycleLater ∧ oneCycleLater.frame = some testFrame ∧
    (∃ a, oneCycleLater.out[0]? = some a) ∧ (∃ b, oneCycleLater.out[0 + cycleLength oneCycleLater.params]? = some b) ∧
    NoDeadlineMiss (running .preamble 0 0 0 0 0) ∧ OutputClosedForm (running .preamble 0 0 0 0 0) ∧
    (running .preamble 0 0 0 0 0).out.length % cycleLength testParams = 0 := by
  have hlen : oneCycleLater.out.length = 104001 := by simp only [oneCycleLater, List.length_map, List.length_range]
  refine ⟨noDeadlineMiss_of_noFault rfl, ⟨fun h => absurd rfl h, fun _ => rfl, ?_, ?_⟩, rfl, ?_, ?_,
    by decide, witness_StepKeepsTheOutputClosedForm.2.2, by decide⟩
  · rw [hlen]; decide +kernel
  · intro f hf T c hc
    obtain rfl : testFrame = f := Option.some.inj hf
    obtain ⟨v, hv⟩ := sampleAt_isSome T
    simp only [oneCycleLater, List.getElem?_map, Option.map_eq_some_iff] at hc
    obtain ⟨u, hu, rfl⟩ := hc
    obtain rfl : T = u := by
      rw [List.getElem?_eq_some_iff] at hu
      obtain ⟨_, hu⟩ := hu
      rwa [List.getElem_range] at hu
    show sampleAt testParams testFrame T = some ((sampleAt testParams testFrame T).getD 0)
    rw [hv]; rfl
  · exact ⟨_, List.getElem?_eq_getElem (by rw [hlen]; decide)⟩
  · exact ⟨_, List.getElem?_eq_getElem (by rw [hlen]; decide +kernel)⟩

/-- Every operation answers a next state somewhere, and a faulting one too where it has one. -/
theorem witness_OperationsLeaveEverythingElse :
    NoDeadlineMiss (blockIn .reset []) ∧ NoDeadlineMiss (blockIn .built []) ∧ NoDeadlineMiss (blockIn .sinkReady []) ∧
    NoDeadlineMiss (blockIn .tickConfigured []) ∧ NoDeadlineMiss (running .data 4 0 10 5 0) ∧
    view (exec (.encPos 1) (blockIn .reset [])) State.life = some .reset ∧
    view (exec (.encId 1) (blockIn .reset [])) State.life = some .reset ∧
    view (exec (.build 1 2 3 4) (blockIn .reset [])) State.life = some .built ∧
    view (exec .cfgSink (blockIn .built [])) State.life = some .sinkReady ∧
    view (exec (.cfgTick 200000) (blockIn .sinkReady [])) State.life = some .tickConfigured ∧
    view (exec .enable (blockIn .tickConfigured [])) State.life = some .running ∧
    view (exec .tick (running .data 4 0 10 5 0)) State.life = some .running ∧
    view (exec .dbgRead (blockIn .reset [])) State.life = some .reset := by decide
theorem witness_ParametersAreConstant :
    NoDeadlineMiss (running .data 4 0 10 5 0) ∧
    view (step (running .data 4 0 10 5 0)) State.params = some testParams := by decide
theorem witness_StartupOrderReachesRunning :
    NoFault (blockIn .reset []) ∧ (blockIn .reset []).life = .reset := by decide
theorem witness_EveryTickAdvancesTheCarrier :
    NoFault (running .data 4 0 10 5 0) ∧
    (view (exec .tick (running .data 4 0 10 5 0)) fun t => t.transmitter.carrierPosition) = some 0#3 ∧
    Instr.cfgSink ≠ .tick ∧ NoDeadlineMiss (blockIn .built []) ∧ view (exec .cfgSink (blockIn .built [])) State.life = some .sinkReady := by decide

end Sys2Proof.Tests
end

section
/-! PROOFS. What a step leaves unchanged, who advances `life`, what only TICK reads or writes, and the ranges of
the scheduler's registers (10_state.md). -/

namespace Sys2Proof.Machine

/-! ### The parameters (10_state.md R31, R35) -/

/-- No update of the state writes the parameters. -/
theorem Effect.params_eq {s t : State} {i : Instr} (e : Effect s i t) : t.params = s.params := by
  cases e <;> rfl

theorem step_params_eq {s t : State} (h : step s = .next t) : t.params = s.params := by
  obtain ⟨-, ⟨-, rfl⟩ | ⟨_, i, -, -, hexec⟩ | ⟨_, _, -, -, hill⟩⟩ := step_cases h
  · rfl
  · exact (exec_effect hexec).params_eq
  · rcases illegalCommand_next hill with rfl | ⟨-, rfl⟩ <;> rfl

/-- Settles O40: whatever a step does, it takes a word, runs an operation or raises a fault, and none of these
writes the parameters. -/
theorem parametersAreConstant : Obligations.ParametersAreConstant :=
  fun _ _ _ h => step_params_eq h

/-! ### The scheduler's registers and the output, in a step -/

/-- An operation either leaves the scheduler's registers and the output, or is a tick that advances the registers
and writes one sample (42_sample_scheduler.md R142). -/
theorem Effect.scheduler_cases {s t : State} {i : Instr} (e : Effect s i t) :
    (t.transmitter = s.transmitter ∧ t.out = s.out) ∨
    (i = .tick ∧ t.transmitter = advance s.params s.transmitter ∧ ∃ c, t.out = s.out ++ [c]) := by
  cases e with
  | tick => exact .inr ⟨rfl, rfl, _, rfl⟩
  | _ => exact .inl ⟨rfl, rfl⟩

theorem step_scheduler_cases {s t : State} (h : step s = .next t) :
    (t.transmitter = s.transmitter ∧ t.out = s.out) ∨
    (t.transmitter = advance s.params s.transmitter ∧ ∃ c, t.out = s.out ++ [c]) := by
  obtain ⟨-, ⟨-, rfl⟩ | ⟨_, i, -, -, hexec⟩ | ⟨_, _, -, -, hill⟩⟩ := step_cases h
  · exact .inl ⟨rfl, rfl⟩
  · exact (exec_effect hexec).scheduler_cases.imp_right And.right
  · rcases illegalCommand_next hill with rfl | ⟨-, rfl⟩ <;> exact .inl ⟨rfl, rfl⟩

/-! ### The ranges of the scheduler's registers (10_state.md R36), in Preamble and in Data -/

theorem transmitterInRange_preamble_iff {q : Params} {t : TransmitterState} (hp : t.macroPhase = .preamble) :
    TransmitterInRange q t ↔ t.carrierPosition.toNat ≤ 4 ∧ t.preambleTickCount.toNat ≤ 31999 ∧
      t.symbolTickCount = 0#9 ∧ t.bitIndex = 0#7 ∧ t.guardSymbolCount = 0 := by
  constructor
  · rintro ⟨hc, hpre, -, -, -⟩
    obtain ⟨hs, hb, hg, hn⟩ := hpre hp
    exact ⟨hc, hn, hs, hb, hg⟩
  · rintro ⟨hc, hn, hs, hb, hg⟩
    exact ⟨hc, fun _ => ⟨hs, hb, hg, hn⟩, by simp [hp], by simp [hg], by simp [hg]⟩

theorem transmitterInRange_data_iff {q : Params} {t : TransmitterState} (hp : t.macroPhase = .data) :
    TransmitterInRange q t ↔ t.carrierPosition.toNat ≤ 4 ∧ t.preambleTickCount = 0#15 ∧
      t.symbolTickCount.toNat ≤ 499 ∧ t.bitIndex.toNat ≤ 121 ∧
      (0 < t.guardSymbolCount → t.bitIndex = 121#7) ∧ t.guardSymbolCount ≤ q.guardSymbols - 1 := by
  simp [hp, and_assoc]

theorem reset_transmitterInRange (q : Params) : TransmitterInRange q TransmitterState.reset :=
  (transmitterInRange_preamble_iff rfl).2 ⟨by decide, by decide, rfl, rfl, rfl⟩

theorem advanceCarrier_toNat (t : TransmitterState) :
    (advanceCarrier t).carrierPosition.toNat = (t.carrierPosition.toNat + 1) % 5 := by
  simp only [advanceCarrier, BitVec.toNat_ofNat, Config.carrierLen]; omega

theorem advanceCarrier_le (t : TransmitterState) : (advanceCarrier t).carrierPosition.toNat ≤ 4 := by
  rw [advanceCarrier_toNat]; omega

/-- Preamble counting stays in range: below the budget the counter is one larger, at the budget Data begins with
every counter 0 (42_sample_scheduler.md R147). -/
theorem advance_inRange_of_preamble {q : Params} {t : TransmitterState} (hp : t.macroPhase = .preamble)
    (h : TransmitterInRange q t) : TransmitterInRange q (advance q t) := by
  obtain ⟨-, hn, hs, hb, hg⟩ := (transmitterInRange_preamble_iff hp).1 h
  by_cases hend : t.preambleTickCount.toNat + 1 = 32000
  · rw [advance_preamble_end hp hend]
    exact (transmitterInRange_data_iff rfl).2
      ⟨advanceCarrier_le t, rfl, by simp, by simp, by simp [hg], by simp [hg]⟩
  · rw [advance_preamble_within hp hend]
    have hn' : (t.preambleTickCount + 1#15).toNat ≤ 31999 := by bv_omega
    exact (transmitterInRange_preamble_iff (by exact hp)).2 ⟨advanceCarrier_le t, hn', hs, hb, hg⟩

/-- Data counting stays in range: within a symbol, at the end of a frame bit, of a guard symbol, and of the last
guard symbol, where Preamble begins again (42_sample_scheduler.md R148, R149). -/
theorem advance_inRange_of_data {q : Params} {t : TransmitterState} (hq : q.guardSymbols ≠ 0)
    (hp : t.macroPhase = .data) (h : TransmitterInRange q t) : TransmitterInRange q (advance q t) := by
  obtain ⟨-, hn, hs, hb, hg, hG⟩ := (transmitterInRange_data_iff hp).1 h
  by_cases hend : t.symbolTickCount.toNat + 1 = 500
  · by_cases hbit : t.bitIndex.toNat < 121
    · rw [advance_bit_end hp hend hbit]
      have hg0 : ¬ 0 < t.guardSymbolCount := fun hpos => by simp [hg hpos] at hbit
      have hb' : (t.bitIndex + 1#7).toNat ≤ 121 := by bv_omega
      exact (transmitterInRange_data_iff (by exact hp)).2
        ⟨advanceCarrier_le t, hn, by simp, hb', fun hpos => absurd hpos hg0, hG⟩
    · have hb121 : t.bitIndex = 121#7 := by bv_omega
      by_cases hlast : t.guardSymbolCount + 1 = q.guardSymbols
      · rw [advance_guard_end hp hend (by omega) hlast]
        exact (transmitterInRange_preamble_iff rfl).2 ⟨advanceCarrier_le t, by simp, rfl, rfl, rfl⟩
      · have hlt : t.guardSymbolCount + 1 < q.guardSymbols := by omega
        rw [advance_guard_within hp hend (by omega) hlt]
        have hG' : t.guardSymbolCount + 1 ≤ q.guardSymbols - 1 := by omega
        exact (transmitterInRange_data_iff (by exact hp)).2
          ⟨advanceCarrier_le t, hn, by simp, hb, fun _ => hb121, hG'⟩
  · rw [advance_symbol_within hp hend]
    have hs' : (t.symbolTickCount + 1#9).toNat ≤ 499 := by bv_omega
    exact (transmitterInRange_data_iff (by exact hp)).2 ⟨advanceCarrier_le t, hn, hs', hb, hg, hG⟩

theorem advance_inRange {q : Params} {t : TransmitterState} (hq : q.guardSymbols ≠ 0)
    (h : TransmitterInRange q t) : TransmitterInRange q (advance q t) := by
  cases hp : t.macroPhase with
  | preamble => exact advance_inRange_of_preamble hp h
  | data => exact advance_inRange_of_data hq hp h

theorem advance_carrierPosition_toNat (q : Params) (t : TransmitterState) :
    (advance q t).carrierPosition.toNat = (t.carrierPosition.toNat + 1) % 5 := by
  rw [advance_carrierPosition]; exact advanceCarrier_toNat t

/-- One tick and one sample more keep the carrier at the number of samples mod 5 (42_sample_scheduler.md R146). -/
theorem carrierCountsTicks_of_tick {s t : State} {c : SinkCall} (h : CarrierCountsTicks s)
    (ht : t.transmitter = advance s.params s.transmitter) (ho : t.out = s.out ++ [c]) : CarrierCountsTicks t := by
  rw [CarrierCountsTicks] at h ⊢
  rw [ht, advance_carrierPosition_toNat, h, ho, List.length_append, List.length_singleton, Nat.mod_add_mod]

/-- Settles O41: a step leaves the registers and the output or is one tick, and `advance` keeps every range (the
guard counter's because a step answers only where GUARD_SYMBOLS is not 0). -/
theorem stepKeepsTheTransmitterInRange : Obligations.StepKeepsTheTransmitterInRange := by
  refine ⟨fun q => ⟨reset_transmitterInRange q, rfl⟩, ?_⟩
  rintro s t - ⟨hrange, hcount⟩ hstep
  obtain ⟨-, -, hguard⟩ := configRefusal_eq_none.1 (step_cases hstep).1
  rw [step_params_eq hstep]
  rcases step_scheduler_cases hstep with ⟨ht, ho⟩ | ⟨ht, c, ho⟩
  · exact ⟨ht ▸ hrange, by rwa [CarrierCountsTicks, ht, ho]⟩
  · exact ⟨ht ▸ advance_inRange hguard hrange, carrierCountsTicks_of_tick hcount ht ho⟩

/-! ### The lifecycle register (10_state.md R29) -/

/-- The four moves of the startup contract: the operation, the state it needs, the state it leads to. -/
def StartupMove (i : Instr) (l l' : Life) : Prop :=
  ((∃ cc aid pos off, i = .build cc aid pos off) ∧ l = .reset ∧ l' = .built) ∨
  (i = .cfgSink ∧ l = .built ∧ l' = .sinkReady) ∨
  ((∃ rate, i = .cfgTick rate ∧ rate % 2 ^ 18 = 200000) ∧ l = .sinkReady ∧ l' = .tickConfigured) ∨
  (i = .enable ∧ l = .tickConfigured ∧ l' = .running)

/-- A move of the startup contract goes one place up. -/
theorem StartupMove.lifeRank_eq {i : Instr} {l l' : Life} (h : StartupMove i l l') :
    lifeRank l' = lifeRank l + 1 := by
  rcases h with ⟨-, rfl, rfl⟩ | ⟨-, rfl, rfl⟩ | ⟨-, rfl, rfl⟩ | ⟨-, rfl, rfl⟩ <;> rfl

theorem tickRate_toNat (rate : Nat) : (tickRate rate).toNat = rate % 2 ^ 18 := BitVec.toNat_ofNat rate 18

/-- An operation leaves `life` or makes its move of the startup contract. -/
theorem Effect.life_cases {s t : State} {i : Instr} (e : Effect s i t) :
    t.life = s.life ∨ StartupMove i s.life t.life := by
  cases e with
  | build _ hl => exact .inr (.inl ⟨⟨_, _, _, _, rfl⟩, hl, rfl⟩)
  | cfgSink _ hl => exact .inr (.inr (.inl ⟨rfl, hl, rfl⟩))
  | cfgTick _ hl hr => exact .inr (.inr (.inr (.inl ⟨⟨_, rfl, tickRate_toNat _ ▸ hr⟩, hl, rfl⟩)))
  | enable _ hl => exact .inr (.inr (.inr (.inr ⟨rfl, hl, rfl⟩)))
  | _ => exact .inl rfl

theorem Effect.lifeRank_le {s t : State} {i : Instr} (e : Effect s i t) : lifeRank s.life ≤ lifeRank t.life := by
  rcases e.life_cases with h | h
  · rw [h]
  · rw [h.lifeRank_eq]; exact Nat.le_succ _

/-- Settles O29: the four moves are the operations' own answers in an unfaulted block, and the inversion of `exec`
leaves no other change of `life`. -/
theorem lifeAdvancesOnlyInTheStartupOrder : Obligations.LifeAdvancesOnlyInTheStartupOrder := by
  refine ⟨fun s hf => ⟨fun hl cc aid pos off => ?_, fun hl => ?_, fun hl => ?_, fun hl => ?_⟩, ?_⟩
  · exact ⟨_, (execBuild_of_none hf cc aid pos off).trans (if_pos hl), rfl⟩
  · exact ⟨_, (execCfgSink_of_none hf).trans (if_pos hl), rfl⟩
  · exact ⟨_, (execCfgTick_of_none hf 200000).trans ((if_pos hl).trans (if_pos rfl)), rfl⟩
  · exact ⟨_, (execEnable_of_none hf).trans (if_pos hl), rfl⟩
  · intro i s t _ hexec
    exact ⟨(exec_effect hexec).life_cases, (exec_effect hexec).lifeRank_le⟩

/-! ### Who reads and writes the scheduler's registers (10_state.md R27) -/

/-- The computation `k` neither reads nor writes the scheduler's registers: with other contents in them it answers
the same, those contents standing. -/
def IgnoresTransmitter (k : State → Answer) : Prop :=
  ∀ (u : TransmitterState) (s : State), k (s.setTransmitter u) = Answer.withTransmitter u (k s)

theorem ignoresTransmitter_unlessFaulted {k : State → Answer} (h : IgnoresTransmitter k) :
    IgnoresTransmitter fun s => unlessFaulted s k := by
  intro u s
  rcases hf : s.fault with _ | r
  · simpa [hf] using h u s
  · simp [hf, Answer.withTransmitter]

theorem ignoresTransmitter_ite {p : State → Prop} [DecidablePred p] {k k' : State → Answer}
    (hp : ∀ u s, p (s.setTransmitter u) ↔ p s) (h : IgnoresTransmitter k) (h' : IgnoresTransmitter k') :
    IgnoresTransmitter fun s => if p s then k s else k' s := by
  intro u s
  by_cases hs : p s
  · simpa [hp, hs] using h u s
  · simpa [hp, hs] using h' u s

theorem ignoresTransmitter_inSequence (need : Life) (i : Instr) {k : State → Answer} (h : IgnoresTransmitter k) :
    IgnoresTransmitter fun s => inSequence need i s k :=
  ignoresTransmitter_ite (fun _ _ => Iff.rfl) h fun _ _ => rfl

/-- DBG_READ selects by the mirror, which is no register of the scheduler. -/
theorem ignoresTransmitter_execDbgRead : IgnoresTransmitter execDbgRead := by
  refine ignoresTransmitter_unlessFaulted fun u s => ?_
  rw [setTransmitter_dbg]
  cases s.dbg <;> rfl

theorem exec_ignoresTransmitter {i : Instr} (hi : i ≠ .tick) : IgnoresTransmitter (exec i) := by
  cases i with
  | encPos d => exact ignoresTransmitter_unlessFaulted fun _ _ => rfl
  | encId d => exact ignoresTransmitter_unlessFaulted fun _ _ => rfl
  | build cc aid pos off =>
    exact ignoresTransmitter_unlessFaulted (ignoresTransmitter_inSequence _ _ fun _ _ => rfl)
  | cfgSink => exact ignoresTransmitter_unlessFaulted (ignoresTransmitter_inSequence _ _ fun _ _ => rfl)
  | cfgTick rate =>
    exact ignoresTransmitter_unlessFaulted (ignoresTransmitter_inSequence _ _
      (ignoresTransmitter_ite (fun _ _ => Iff.rfl) (fun _ _ => rfl) fun _ _ => rfl))
  | enable => exact ignoresTransmitter_unlessFaulted (ignoresTransmitter_inSequence _ _ fun _ _ => rfl)
  | tick => exact absurd rfl hi
  | dbgRead => exact ignoresTransmitter_execDbgRead

theorem exec_transmitter_eq {i : Instr} {s t : State} (hi : i ≠ .tick) (h : exec i s = .next t) :
    t.transmitter = s.transmitter := by
  rcases (exec_effect h).scheduler_cases with ⟨ht, -⟩ | ⟨htick, -, -⟩
  · exact ht
  · exact absurd htick hi

/-- A tick in Running changes the scheduler's registers, the output and the mirror, and nothing else. -/
theorem execTick_running_frame {s t : State} (hl : s.life = .running) (h : exec .tick s = .next t) :
    t = { s with transmitter := t.transmitter, out := t.out, dbg := t.dbg } := by
  cases exec_effect h with
  | faulted => rfl
  | tick => rfl
  | tickFault _ hne => exact absurd hl hne

/-- Settles O38: every operation but TICK is made of parts that ignore the scheduler's registers. -/
theorem onlyTickReadsOrWritesTheTransmitter : Obligations.OnlyTickReadsOrWritesTheTransmitter :=
  ⟨fun _ s _ hi => ⟨fun _ h => exec_transmitter_eq hi h, fun u => exec_ignoresTransmitter hi u s⟩,
    fun _ _ _ hl h => execTick_running_frame hl h⟩

end Sys2Proof.Machine
end

section
/-! PROOFS. Which command words are legal and what an illegal one does (30_encoding.md R72, R74), and what the
assembler's pseudo-operations stand for (30_encoding.md R76). -/

namespace Sys2Proof

variable {w : Word}

/-! ### The `op` field and the reserved payload bits -/

theorem extract_op_eq_iff (k : BitVec 4) : w.extractLsb' 0 4 = k ↔ w.field 3 0 = k.toNat := by
  rw [field_eq_extract]; exact BitVec.toNat_inj.symm

theorem field_eq_zero_iff (hi lo : Nat) : w.field hi lo = 0 ↔ w.extractLsb' lo (hi + 1 - lo) = 0#(hi + 1 - lo) := by
  rw [field_eq_extract, BitVec.toNat_eq, BitVec.toNat_zero]

/-- The payload from bit `lo` up is not 0 exactly where one of its bits is 1. -/
theorem field_top_ne_zero_iff (lo : Nat) :
    w.field 79 lo ≠ 0 ↔ ∃ b, lo ≤ b ∧ b ≤ 79 ∧ w.getLsbD b = true := by
  rw [Ne, field_eq_zero_iff, BitVec.eq_of_getLsbD_eq_iff]
  constructor
  · intro h
    simp only [not_forall] at h
    obtain ⟨i, hi, hbit⟩ := h
    exact ⟨lo + i, by omega, by omega, by simpa [hi] using hbit⟩
  · rintro ⟨b, hlo, hhi, hbit⟩ hzero
    have hi : b - lo < 79 + 1 - lo := by omega
    have hbit' := hzero (b - lo) hi
    simp [hi, Nat.add_sub_cancel' hlo, hbit] at hbit'

theorem field_79_79_ne_zero_iff : w.field 79 79 ≠ 0 ↔ w.getLsbD 79 = true := by
  rw [field_top_ne_zero_iff]
  constructor
  · rintro ⟨b, hlo, hhi, hbit⟩
    rwa [show b = 79 by omega] at hbit
  · exact fun hbit => ⟨79, le_rfl, le_rfl, hbit⟩

/-! ### The two verdicts of the decoder (30_encoding.md R74) -/

theorem whenReservedZero_of_eq {r op : Nat} {i : Instr} (h : r = 0) : whenReservedZero r op i = .op i :=
  whenReservedZero_eq_op.2 ⟨h, rfl⟩

theorem whenReservedZero_eq_illegal_iff {r op : Nat} {i : Instr} :
    (∃ why, whenReservedZero r op i = .illegal why) ↔ r ≠ 0 := by
  by_cases h : r = 0
  · simp [h]
  · simp [whenReservedZero_of_ne h, h]

/-- A word is illegal exactly where its `op` is reserved or the reserved payload of its operation is not 0. -/
theorem decode_eq_illegal_iff :
    (∃ why, decode w = .illegal why) ↔
      w.field 3 0 = 0 ∨ 9 ≤ w.field 3 0 ∨
      (w.field 3 0 = 1 ∧ w.field 79 25 ≠ 0) ∨ (w.field 3 0 = 2 ∧ w.field 79 16 ≠ 0) ∨
      (w.field 3 0 = 3 ∧ w.field 79 79 ≠ 0) ∨ (w.field 3 0 = 5 ∧ w.field 79 22 ≠ 0) ∨
      ((w.field 3 0 = 4 ∨ w.field 3 0 = 6 ∨ w.field 3 0 = 7 ∨ w.field 3 0 = 8) ∧ w.field 79 4 ≠ 0) := by
  by_cases hres : w.field 3 0 = 0 ∨ 9 ≤ w.field 3 0
  · exact iff_of_true ⟨_, decode_of_reservedOp hres⟩ (hres.imp_right .inl)
  · have hop : w.field 3 0 = 1 ∨ w.field 3 0 = 2 ∨ w.field 3 0 = 3 ∨ w.field 3 0 = 4 ∨ w.field 3 0 = 5 ∨
        w.field 3 0 = 6 ∨ w.field 3 0 = 7 ∨ w.field 3 0 = 8 := by omega
    rcases hop with h | h | h | h | h | h | h | h
    · simp [decode_of_op1 h, whenReservedZero_eq_illegal_iff, h]
    · simp [decode_of_op2 h, whenReservedZero_eq_illegal_iff, h]
    · simp [decode_of_op3 h, whenReservedZero_eq_illegal_iff, h]
    · simp [decode_of_op4 h, whenReservedZero_eq_illegal_iff, h]
    · simp [decode_of_op5 h, whenReservedZero_eq_illegal_iff, h]
    · simp [decode_of_op6 h, whenReservedZero_eq_illegal_iff, h]
    · simp [decode_of_op7 h, whenReservedZero_eq_illegal_iff, h]
    · simp [decode_of_op8 h, whenReservedZero_eq_illegal_iff, h]

/-- The operation of a row whose reserved payload is 0, its operands read as slices of bits. -/
theorem decode_of_reserved_zero {lo op : Nat} {i : Instr} (hd : decode w = whenReservedZero (w.field 79 lo) op i)
    (hres : w.extractLsb' lo (80 - lo) = 0#(80 - lo)) : decode w = .op i :=
  hd.trans (whenReservedZero_of_eq ((field_eq_zero_iff 79 lo).2 hres))

namespace Machine

/-- An illegal word standing next in an unfaulted block is taken and raises ILLEGAL_COMMAND. -/
theorem raisesIllegalCommand_of_illegal {why : IllegalWord} (hd : decode w = .illegal why) :
    RaisesIllegalCommand w := by
  intro s hconfig hfault hnext
  calc step s = illegalCommand w s.dropWord := step_of_illegal (configRefusal_eq_none.2 hconfig) hnext hd
    _ = .next (s.dropWord.raiseFault .illegalCommand w) := illegalCommand_of_none (s := s.dropWord) hfault w

/-- Settles O3: each legal form is its row's decoder equation with reserved payload 0, and the illegal words are
those of `decode_eq_illegal_iff`, their reserved payloads read bit by bit. -/
theorem decodingIsTheReservedBitRule : Obligations.DecodingIsTheReservedBitRule := by
  intro w
  simp only [extract_op_eq_iff, ← field_eq_extract w 3 0, BitVec.reduceToNat]
  refine ⟨fun h hr => ?_, fun h hr => ?_, fun h hr => ?_, fun h hr => decode_of_reserved_zero (decode_of_op4 h) hr,
    fun h hr => ?_, fun h hr => decode_of_reserved_zero (decode_of_op6 h) hr,
    fun h hr => decode_of_reserved_zero (decode_of_op7 h) hr,
    fun h hr => decode_of_reserved_zero (decode_of_op8 h) hr, ?_,
    fun ⟨_, hd⟩ => raisesIllegalCommand_of_illegal hd⟩
  · simpa only [field_eq_extract] using decode_of_reserved_zero (decode_of_op1 h) hr
  · simpa only [field_eq_extract] using decode_of_reserved_zero (decode_of_op2 h) hr
  · simpa only [field_eq_extract] using decode_of_reserved_zero (decode_of_op3 h) hr
  · simpa only [field_eq_extract] using decode_of_reserved_zero (decode_of_op5 h) hr
  · rw [decode_eq_illegal_iff, field_79_79_ne_zero_iff]
    simp only [field_top_ne_zero_iff]

/-! ### The pseudo-operations (30_encoding.md R76) -/

/-- Settles O7: TICK*n is the TICK word mapped over `n` copies of TICK, and BOOT's four words are the
encoder's own, the operands of BUILD left as they are. -/
theorem pseudoOperationsExpand : Obligations.PseudoOperationsExpand := by
  refine ⟨fun n => ?_, fun cc aid pos off => rfl⟩
  have htick : encode .tick = 0x00000000000000000007#80 := rfl
  simp [assemble, expandLine, htick]

end Machine

end Sys2Proof
end

section
/-! PROOFS. The BCH parity encoder (40_bch_encoder.md): the bit-serial step on bits and on polynomials over GF(2), the
properties of the parity, and the two operations that answer with one. -/

namespace Sys2Proof.Machine

variable (g : Nat)

/-! ### The bit-serial step (40_bch_encoder.md R100) -/

/-- The step shifts the input bit in (the OR of R100 sets the bit that the shift has cleared) and, where that bit
differs from bit 9, adds the polynomial. -/
theorem bchStep_eq_xor (r : Nat) (b : Bool) :
    bchStep g r b = Nat.bit b r ^^^ (if r.testBit 9 ^^ b then g else 0) := by
  have hbit : (r <<< 1) ||| b.toNat = Nat.bit b r := by
    rw [← Nat.shiftLeft_add_eq_or_of_lt (Bool.toNat_lt b), Nat.shiftLeft_eq, mul_comm, Nat.bit_val]
  simp only [bchStep, hbit]
  split <;> simp

theorem encodePositionParity_eq_foldl (d : BitVec 21) :
    encodePositionParity g d =
      BitVec.ofNat 10 ((List.range 21).foldl (fun r k => bchStep g r (d.getLsbD (20 - k))) 0) := by
  simp only [encodePositionParity, bchRegister, positionBits, List.foldl_map]

/-! ### Linearity (40_bch_encoder.md R104) -/

theorem bchStep_xor (r s : Nat) (b c : Bool) :
    bchStep g r b ^^^ bchStep g s c = bchStep g (r ^^^ s) (b ^^ c) := by
  have hmask (p q : Bool) : (if p ^^ q then g else 0) = (if p then g else 0) ^^^ (if q then g else 0) := by
    cases p <;> cases q <;> simp
  have hbit : Nat.bit (b ^^ c) (r ^^^ s) = Nat.bit b r ^^^ Nat.bit c s := (Nat.xor_bit b r c s).symm
  simp only [bchStep_eq_xor, Nat.testBit_xor, hmask, hbit]
  ac_rfl

theorem encodePositionParity_xor (a b : BitVec 21) :
    encodePositionParity g (a ^^^ b) = encodePositionParity g a ^^^ encodePositionParity g b := by
  simp only [encodePositionParity_eq_foldl, BitVec.getLsbD_xor, ← BitVec.ofNat_xor]
  congr 1
  exact List.foldl_hom₂ _ (· ^^^ ·) (fun r k => bchStep g r (a.getLsbD (20 - k)))
    (fun r k => bchStep g r (b.getLsbD (20 - k))) _ 0 0 fun r s k => bchStep_xor g r s _ _

theorem encodePositionParity_zero : encodePositionParity g 0#21 = 0#10 := by
  simpa using encodePositionParity_xor g 0#21 0#21

/-- Settles O16: the step is linear in the register and the bit together, so the loop is linear in the data. -/
theorem positionParityIsLinear : Obligations.PositionParityIsLinear :=
  fun g a b => ⟨encodePositionParity_xor g a b, encodePositionParity_zero g⟩

/-! ### The width of the register (40_bch_encoder.md R102) -/

/-- The low 10 bits of the next register are the 10-bit step of the low 10 bits: nothing moves down. -/
theorem bchStep10_ofNat (r : Nat) (b : Bool) :
    bchStep10 g (BitVec.ofNat 10 r) b = BitVec.ofNat 10 (bchStep g r b) := by
  have hmsb : (BitVec.ofNat 10 r).getLsbD 9 = r.testBit 9 := BitVec.getLsbD_ofNat 10 r 9
  have hshift : BitVec.ofNat 10 r <<< 1 = BitVec.ofNat 10 (r <<< 1) :=
    BitVec.eq_of_toNat_eq (by simp [Nat.shiftLeft_eq])
  simp only [bchStep10, bchStep, hmsb, hshift]
  split <;> simp only [BitVec.ofNat_xor, BitVec.ofNat_or]

theorem ofNat_mod_two_pow {n width : Nat} (h : n ≤ width) (v : Nat) :
    BitVec.ofNat n (v % 2 ^ width) = BitVec.ofNat n v :=
  BitVec.eq_of_toNat_eq (by simp [Nat.mod_mod_of_dvd v (Nat.pow_dvd_pow 2 h)])

/-- Settles O17: reduction to 10 bits commutes with the step, and hence with the loop, in each of the two forms. -/
theorem positionParityIgnoresTheRegisterWidth : Obligations.PositionParityIgnoresTheRegisterWidth := by
  have hloop (g : Nat) (d : BitVec 21) : encodePositionParity10 g d = encodePositionParity g d :=
    List.foldl_hom (BitVec.ofNat 10) (bchStep10_ofNat g)
  refine ⟨hloop, fun g width d hwidth => ?_⟩
  rw [← hloop]
  refine (List.foldl_hom (BitVec.ofNat 10) fun r b => ?_).symm
  rw [bchStep10_ofNat, ofNat_mod_two_pow hwidth]

/-! ### Polynomials over GF(2) (00_scope.md R10) -/

open Polynomial

theorem polynomialOf_succ (n v : Nat) :
    polynomialOf (n + 1) v = polynomialOf n v + if v.testBit n then X ^ n else 0 :=
  Finset.sum_range_succ _ n

/-- The least significant bit of a number is the constant term of its polynomial. -/
theorem polynomialOf_bit (n v : Nat) (b : Bool) :
    polynomialOf (n + 1) (Nat.bit b v) = X * polynomialOf n v + if b then 1 else 0 := by
  simp only [polynomialOf, Finset.sum_range_succ', Nat.testBit_bit_succ, Nat.testBit_bit_zero, pow_zero,
    Finset.mul_sum, mul_ite, mul_zero, ← pow_succ']

theorem polynomialOf_xor (n u v : Nat) : polynomialOf n (u ^^^ v) = polynomialOf n u + polynomialOf n v := by
  simp only [polynomialOf, ← Finset.sum_add_distrib]
  refine Finset.sum_congr rfl fun i _ => ?_
  rw [Nat.testBit_xor]
  cases u.testBit i <;> cases v.testBit i <;> simp [CharTwo.add_self_eq_zero]

theorem polynomialOf_zero (n : Nat) : polynomialOf n 0 = 0 := by simp [polynomialOf]

theorem polynomialOf_mod_two_pow (n v : Nat) : polynomialOf n (v % 2 ^ n) = polynomialOf n v := by
  refine Finset.sum_congr rfl fun i hi => ?_
  simp [Nat.testBit_mod_two_pow, Finset.mem_range.1 hi]

theorem degree_polynomialOf_lt (n v : Nat) : (polynomialOf n v).degree < n := by
  rw [degree_lt_iff_coeff_zero]
  intro m hm
  rw [polynomialOf, finsetSum_coeff]
  refine Finset.sum_eq_zero fun i hi => ?_
  have hne : m ≠ i := ((Finset.mem_range.1 hi).trans_le hm).ne'
  split <;> simp [coeff_X_pow, hne]

variable {g}

theorem testBit_ten_of_genPoly (hlo : 0x400 ≤ g) (hhi : g ≤ 0x7FF) : g.testBit 10 = true := by
  rw [Nat.testBit_eq_decide_div_mod_eq, decide_eq_true_eq]
  omega

theorem polynomialOf_genPoly (hbit : g.testBit 10 = true) :
    polynomialOf 11 g = X ^ 10 + polynomialOf 10 g := by
  rw [polynomialOf_succ, if_pos hbit, add_comm]

theorem monic_polynomialOf_genPoly (hbit : g.testBit 10 = true) : (polynomialOf 11 g).Monic := by
  rw [polynomialOf_genPoly hbit]
  exact monic_X_pow_add (degree_polynomialOf_lt 10 g)

theorem degree_polynomialOf_genPoly (hbit : g.testBit 10 = true) : (polynomialOf 11 g).degree = 10 := by
  rw [polynomialOf_genPoly hbit]
  have hlow : (polynomialOf 10 g).degree < (X ^ 10 : Polynomial (ZMod 2)).degree := by
    rw [degree_X_pow]; exact degree_polynomialOf_lt 10 g
  exact (degree_add_eq_left_of_degree_lt hlow).trans (degree_X_pow 10)

/-! ### The closed form of the parity (40_bch_encoder.md R103) -/

/-- Bit 10 of the next register is the input bit: the polynomial's own bit 10 takes bit 9 out. -/
theorem testBit_ten_bchStep (hbit : g.testBit 10 = true) (r : Nat) (b : Bool) : (bchStep g r b).testBit 10 = b := by
  rw [bchStep_eq_xor, Nat.testBit_xor, Nat.testBit_bit_succ]
  cases r.testBit 9 <;> cases b <;> simp [hbit]

/-- One step on the low 10 bits, as polynomials: `L' = x·L + b·(x^10 + 1) + (L[9] + b)·g`. -/
theorem polynomialOf_bchStep (hbit : g.testBit 10 = true) (r : Nat) (b : Bool) :
    polynomialOf 10 (bchStep g r b) =
      X * polynomialOf 10 r + (X ^ 10 + 1) * (if b then 1 else 0) +
        (if r.testBit 9 ^^ b then polynomialOf 11 g else 0) := by
  have hnext : polynomialOf 11 (bchStep g r b) = polynomialOf 10 (bchStep g r b) + if b then X ^ 10 else 0 := by
    rw [polynomialOf_succ, testBit_ten_bchStep hbit]
  have hmask : polynomialOf 11 (if r.testBit 9 ^^ b then g else 0) =
      if r.testBit 9 ^^ b then polynomialOf 11 g else 0 := by
    rw [apply_ite (polynomialOf 11), polynomialOf_zero]
  have hin : (if b then X ^ 10 else 0 : Polynomial (ZMod 2)) = X ^ 10 * (if b then 1 else 0) := by
    rw [mul_ite, mul_one, mul_zero]
  calc polynomialOf 10 (bchStep g r b)
    _ = polynomialOf 11 (bchStep g r b) + if b then X ^ 10 else 0 := by rw [hnext, CharTwo.add_cancel_right]
    _ = X * polynomialOf 10 r + (if b then 1 else 0) +
        (if r.testBit 9 ^^ b then polynomialOf 11 g else 0) + if b then X ^ 10 else 0 := by
      rw [bchStep_eq_xor, polynomialOf_xor, polynomialOf_bit, hmask]
    _ = _ := by rw [hin]; ring

@[simp] theorem length_positionBits (d : BitVec 21) : (positionBits d).length = 21 := by simp [positionBits]

/-- The first `k + 1` data bits are the first `k` and then `d[20 - k]`. -/
theorem take_succ_positionBits (d : BitVec 21) {k : Nat} (hk : k < 21) :
    (positionBits d).take (k + 1) = (positionBits d).take k ++ [d.getLsbD (20 - k)] := by
  rw [List.take_succ_eq_append_getElem (by simpa using hk)]
  simp [positionBits]

theorem bchRegister_append_singleton (bits : List Bool) (b : Bool) :
    bchRegister g (bits ++ [b]) = bchStep g (bchRegister g bits) b := by
  simp [bchRegister]

/-- The number that the first `k + 1` data bits write is the one of the first `k`, with `d[20 - k]` shifted in. -/
theorem shiftRight_eq_bit (d : BitVec 21) {k : Nat} (hk : k < 21) :
    d.toNat >>> (20 - k) = Nat.bit (d.getLsbD (20 - k)) (d.toNat >>> (21 - k)) := by
  have h := Nat.bit_testBit_zero_shiftRight_one (d.toNat >>> (20 - k))
  rwa [Nat.testBit_shiftRight, ← Nat.shiftRight_add, show 20 - k + 1 = 21 - k by omega, Nat.add_zero, eq_comm] at h

/-- The loop of R101, after `k` steps: the register is `(x^10 + 1)` times the data read so far, modulo `g`. -/
theorem genPoly_dvd_register_sub (hbit : g.testBit 10 = true) (d : BitVec 21) {k : Nat} (hk : k ≤ 21) :
    polynomialOf 11 g ∣ polynomialOf 10 (bchRegister g ((positionBits d).take k)) -
      (X ^ 10 + 1) * polynomialOf k (d.toNat >>> (21 - k)) := by
  induction k with
  | zero => simp [bchRegister, polynomialOf]
  | succ k ih =>
    rw [take_succ_positionBits d hk, bchRegister_append_singleton, polynomialOf_bchStep hbit,
      show 21 - (k + 1) = 20 - k by omega, shiftRight_eq_bit d hk, polynomialOf_bit]
    set r := bchRegister g ((positionBits d).take k)
    set mask : Polynomial (ZMod 2) := if r.testBit 9 ^^ d.getLsbD (20 - k) then polynomialOf 11 g else 0
    have hmask : polynomialOf 11 g ∣ mask := by
      unfold mask; split
      · exact dvd_rfl
      · exact dvd_zero _
    convert ((ih (by omega)).mul_left X).add hmask using 1
    ring

theorem polynomialOf_encodePositionParity (d : BitVec 21) :
    polynomialOf 10 (encodePositionParity g d).toNat = polynomialOf 10 (bchRegister g (positionBits d)) := by
  rw [encodePositionParity, BitVec.toNat_ofNat, polynomialOf_mod_two_pow]

theorem encodePositionParity_closedForm (hbit : g.testBit 10 = true) (d : BitVec 21) :
    polynomialOf 10 (encodePositionParity g d).toNat =
      ((X ^ 10 + 1) * polynomialOf 21 d.toNat) %ₘ polynomialOf 11 g := by
  have hdvd := genPoly_dvd_register_sub hbit d le_rfl
  rw [List.take_of_length_le (length_positionBits d).le, Nat.sub_self, Nat.shiftRight_zero] at hdvd
  have hreduced : (polynomialOf 10 (bchRegister g (positionBits d))).degree < (polynomialOf 11 g).degree := by
    rw [degree_polynomialOf_genPoly hbit]; exact degree_polynomialOf_lt 10 _
  rw [polynomialOf_encodePositionParity,
    ← modByMonic_eq_of_dvd_sub (monic_polynomialOf_genPoly hbit) hdvd,
    (modByMonic_eq_self_iff (monic_polynomialOf_genPoly hbit)).2 hreduced]

/-- Settles O15: the loop's invariant, after all 21 steps, and the register's degree below 10. -/
theorem positionParityClosedForm : Obligations.PositionParityClosedForm :=
  fun _ d hlo hhi => encodePositionParity_closedForm (testBit_ten_of_genPoly hlo hhi) d

/-! ### ENC_POS and ENC_ID (40_bch_encoder.md R101, R106, R108) -/

/-- A word whose `op` is legal and whose reserved payload is not 0 raises ILLEGAL_COMMAND (30_encoding.md R74). -/
theorem raisesIllegalCommand_of_reserved {w : Word} {lo op : Nat} {i : Instr}
    (hd : decode w = whenReservedZero (w.field 79 lo) op i) (hres : w.extractLsb' lo (80 - lo) ≠ 0#(80 - lo)) :
    RaisesIllegalCommand w :=
  raisesIllegalCommand_of_illegal (hd.trans (whenReservedZero_of_ne (mt (field_eq_zero_iff 79 lo).1 hres) op i))

/-- The worked example of R101, the golden vector of R108. -/
theorem encodePositionParity_golden : encodePositionParity 0x769 0x1A5F3#21 = 0x08A#10 := by decide +kernel

/-- The data bits of an operand are its own bits. -/
theorem encodePositionParity_positionData {d : Nat} (h : d < 2 ^ 21) :
    encodePositionParity g (positionData d) =
      BitVec.ofNat 10 ((List.range 21).foldl (fun r k => bchStep g r (d.testBit (20 - k))) 0) := by
  have hbit (k : Nat) : (positionData d).getLsbD k = d.testBit k := by
    rw [positionData, operand, ← BitVec.testBit_toNat, BitVec.toNat_ofNat, Nat.mod_eq_of_lt h]
  simp only [encodePositionParity_eq_foldl, hbit]

/-- Settles O12: ENC_POS records the parity of its operand's bits and writes no other field. -/
theorem encPosReturnsThePositionParity : Obligations.EncPosReturnsThePositionParity := by
  refine ⟨fun d s hs hd => ?_, fun w hop hres => ?_, encodePositionParity_zero, encodePositionParity_golden⟩
  · rw [execEncPos_of_none hs, encodePositionParity_positionData hd]; rfl
  · exact raisesIllegalCommand_of_reserved (decode_of_op1 ((extract_op_eq_iff 1#4).1 hop)) hres

/-- Settles O13: ENC_ID records its operand and writes no other field. -/
theorem encIdReturnsItsOperand : Obligations.EncIdReturnsItsOperand := by
  refine ⟨fun d s hs _ => ?_, fun w hop hres => ?_⟩
  · exact execEncId_of_none hs d
  · exact raisesIllegalCommand_of_reserved (decode_of_op2 ((extract_op_eq_iff 2#4).1 hop)) hres

/-- Settles O14: of the state, ENC_POS reads only the fault register and the polynomial. -/
theorem positionParityIsDeterministic : Obligations.PositionParityIsDeterministic := by
  refine ⟨fun d s t hs ht hpoly => ⟨encodePositionParity s.params.genPoly (positionData d), ?_, ?_⟩,
    encodePositionParity_golden⟩
  · exact execEncPos_of_none hs d
  · rw [hpoly]; exact execEncPos_of_none ht d

end Sys2Proof.Machine
end

section
/-! PROOFS. The frame builder (41_frame_builder.md): where `put_field` places a field, the built frame as the
concatenation of its fields, and what BUILD does with it. -/

namespace Sys2Proof.Machine

/-! ### `put_field` (41_frame_builder.md R123) -/

/-- Element writes at `start`, `start + 1`, … are read back there, and every other element is as before. -/
theorem frameBit_foldl_frameSet (start : Nat) (b : Nat → Bool) (f : Frame) {k : Nat} (hk : k < 121) (m : Nat) :
    frameBit ((List.range m).foldl (fun f j => frameSet f (start + j) (b j)) f) k =
      if start ≤ k ∧ k < start + m then b (k - start) else frameBit f k := by
  induction m with
  | zero => rw [if_neg (by omega)]; rfl
  | succ m ih =>
    rw [List.range_succ, List.foldl_append, List.foldl_cons, List.foldl_nil]
    by_cases h : k = start + m
    · subst h
      rw [frameBit_frameSet_same _ hk, if_pos (by omega), Nat.add_sub_cancel_left]
    · rw [frameBit_frameSet_other _ h, ih]
      exact if_congr (by omega) rfl rfl

theorem frameBit_putField (start : Nat) {n : Nat} (v : BitVec n) (f : Frame) {k : Nat} (hk : k < 121) :
    frameBit (putField start v f) k =
      if start ≤ k ∧ k < start + n then v.getLsbD (n - 1 - (k - start)) else frameBit f k :=
  frameBit_foldl_frameSet start (fun j => v.getLsbD (n - 1 - j)) f hk n

/-- Settles O21: a position within the field reads the field's bit, and one outside reads the old frame. -/
theorem putFieldPlacesMsbFirst : Obligations.PutFieldPlacesMsbFirst := by
  refine fun start n v f hfits => ⟨fun j hj => ?_, fun k hk hout => ?_⟩
  · rw [frameBit_putField start v f (by omega), if_pos (by omega), Nat.add_sub_cancel_left]
  · rw [frameBit_putField start v f hk, if_neg (by omega)]

/-! ### The frame as the concatenation of its fields (41_frame_builder.md R120) -/

/-- The first `m` elements of the frame are `x`, most significant bit first. -/
def FrameStartsWith (f : Frame) {m : Nat} (x : BitVec m) : Prop := ∀ k < m, frameBit f k = x.getMsbD k

theorem frameStartsWith_nil (f : Frame) : FrameStartsWith f BitVec.nil := fun k hk => absurd hk k.not_lt_zero

/-- A field put right after the fields written so far is appended to them. -/
theorem FrameStartsWith.putField {f : Frame} {m n : Nat} {x : BitVec m} (h : FrameStartsWith f x) (v : BitVec n)
    (hfits : m + n ≤ 121) : FrameStartsWith (putField m v f) (x ++ v) := by
  intro k hk
  rw [frameBit_putField m v f (by omega), BitVec.getMsbD_append]
  by_cases hm : m ≤ k
  · have hfield : k - m < n := by omega
    rw [if_pos ⟨hm, hk⟩, if_pos hm, BitVec.getMsbD_eq_getLsbD, decide_eq_true hfield, Bool.true_and]
  · rw [if_neg fun hin => hm hin.1, if_neg hm]
    exact h k (by omega)

theorem FrameStartsWith.eq {f x : Frame} (h : FrameStartsWith f x) : f = x := BitVec.eq_of_getMsbD_eq h

theorem FrameStartsWith.left {f : Frame} {m n : Nat} {x : BitVec m} {v : BitVec n}
    (h : FrameStartsWith f (x ++ v)) : FrameStartsWith f x := by
  intro k hk
  rw [h k (by omega), BitVec.getMsbD_append, if_neg (by omega)]

theorem getMsbD_frameField (f : Frame) {start n i : Nat} (hfits : start + n ≤ 121) (hi : i < n) :
    (frameField f start n).getMsbD i = frameBit f (start + i) := by
  rw [frameField, BitVec.getMsbD_extractLsb', decide_eq_true hi, decide_eq_true (by omega), frameBit,
    show 121 - (121 - start - n + n - i) = start + i by omega, Bool.true_and, Bool.true_and]

/-- The field appended last reads back as the value appended. -/
theorem FrameStartsWith.frameField_eq {f : Frame} {m n : Nat} {x : BitVec m} {v : BitVec n}
    (h : FrameStartsWith f (x ++ v)) (hfits : m + n ≤ 121) : frameField f m n = v := by
  refine BitVec.eq_of_getMsbD_eq fun i hi => ?_
  rw [getMsbD_frameField f hfits hi, h (m + i) (by omega), BitVec.getMsbD_append, if_pos (by omega),
    Nat.add_sub_cancel_left]

section BuiltFrame

variable (g : Nat) (cc : BitVec 10) (aid : BitVec 24) (pos : BitVec 21) (off : BitVec 20)

/-- Each `put_field` of the builder starts where the fields before it end. -/
theorem buildFrame_startsWith :
    FrameStartsWith (buildFrame g cc aid pos off)
      (BitVec.nil ++ 0x7FFF#15 ++ 0b110101100#9 ++ cc ++ aid ++ pos ++ off ++ encodePositionParity g pos ++
        encodeIdParity (aid.setWidth 12)) := by
  have hsync := (frameStartsWith_nil 0#121).putField 0x7FFF#15 (by omega)
  have hframeSync := hsync.putField Config.frameSync (by omega)
  have hcc := hframeSync.putField cc (by omega)
  have haid := hcc.putField aid (by omega)
  have hpos := haid.putField pos (by omega)
  have hoff := hpos.putField off (by omega)
  have hpositionParity := hoff.putField (encodePositionParity g pos) (by omega)
  exact hpositionParity.putField (encodeIdParity (aid.setWidth 12)) (by omega)

theorem buildFrame_eq_append :
    buildFrame g cc aid pos off =
      0x7FFF#15 ++ 0b110101100#9 ++ cc ++ aid ++ pos ++ off ++ encodePositionParity g pos ++ aid.setWidth 12 :=
  (buildFrame_startsWith g cc aid pos off).eq

/-- Reading each of the eight fields back, the last one put first. -/
theorem frameField_buildFrame :
    frameField (buildFrame g cc aid pos off) 0 15 = 0x7FFF#15 ∧
    frameField (buildFrame g cc aid pos off) 15 9 = 0b110101100#9 ∧
    frameField (buildFrame g cc aid pos off) 24 10 = cc ∧
    frameField (buildFrame g cc aid pos off) 34 24 = aid ∧
    frameField (buildFrame g cc aid pos off) 58 21 = pos ∧
    frameField (buildFrame g cc aid pos off) 79 20 = off ∧
    frameField (buildFrame g cc aid pos off) 99 10 = encodePositionParity g pos ∧
    frameField (buildFrame g cc aid pos off) 109 12 = encodeIdParity (aid.setWidth 12) := by
  have hidParity := buildFrame_startsWith g cc aid pos off
  have hpositionParity := hidParity.left
  have hoff := hpositionParity.left
  have hpos := hoff.left
  have haid := hpos.left
  have hcc := haid.left
  have hframeSync := hcc.left
  have hsync := hframeSync.left
  exact ⟨hsync.frameField_eq (by omega), hframeSync.frameField_eq (by omega), hcc.frameField_eq (by omega),
    haid.frameField_eq (by omega), hpos.frameField_eq (by omega), hoff.frameField_eq (by omega),
    hpositionParity.frameField_eq (by omega), hidParity.frameField_eq (by omega)⟩

end BuiltFrame

/-- Settles O22: each field starts where the fields before it end, and the eight are the whole frame. -/
theorem builtFrameIsTheFieldsInOrder : Obligations.BuiltFrameIsTheFieldsInOrder := by
  refine fun g cc aid pos off => ⟨buildFrame_eq_append g cc aid pos off, fun f i hi => ?_⟩
  rw [frameBit, BitVec.getMsbD_eq_getLsbD, decide_eq_true hi, Bool.true_and]

theorem frameField_buildFrame_zero (g : Nat) : frameField (buildFrame g 0#10 0#24 0#21 0#20) 24 97 = 0#97 := by
  rw [buildFrame_eq_append, encodePositionParity_zero]
  decide

/-! ### BUILD (41_frame_builder.md R121, R122, R127) -/

variable {s : State}

theorem execBuild_of_reset (hfault : NoFault s) (hlife : s.life = .reset) (cc aid pos off : Nat) :
    exec (.build cc aid pos off) s =
      .next ((s.frameWrite (buildFrame s.params.genPoly (countryCode cc) (aircraftId aid) (position pos)
        (positionOffset off))).setLife .built) := by
  rw [execBuild_of_none hfault, if_pos hlife]

theorem execBuild_of_ne_reset (hfault : NoFault s) (hlife : s.life ≠ .reset) (cc aid pos off : Nat) :
    exec (.build cc aid pos off) s = .next (s.raiseFault .sequence (encode (.build cc aid pos off))) := by
  rw [execBuild_of_none hfault, if_neg hlife]

theorem execBuild_completes (hfault : NoFault s) (hlife : s.life = .reset) (cc aid pos off : Nat) :
    ∃ t, exec (.build cc aid pos off) s = .next t ∧ NoFault t ∧ t.life = .built :=
  ⟨_, execBuild_of_reset hfault hlife cc aid pos off, hfault, rfl⟩

/-- Settles O20: the lifecycle check decides between the frame and SEQUENCE, and SEQUENCE writes the fault register
only. -/
theorem buildHappensOnce : Obligations.BuildHappensOnce :=
  fun cc aid pos off _ hfault =>
    ⟨fun hlife => execBuild_completes hfault hlife cc aid pos off,
      fun hlife => execBuild_of_ne_reset hfault hlife cc aid pos off⟩

theorem operand_mod_two_pow (n v : Nat) : operand n (v % 2 ^ n) = operand n v := ofNat_mod_two_pow le_rfl v

theorem trunc_mod_two_pow (n v : Nat) : trunc n (v % 2 ^ n) = trunc n v := Nat.mod_mod v (2 ^ n)

/-- BUILD reads each operand as an `operand` of the field's width, and its command word, which a fault records,
holds it truncated to the same width. -/
theorem execBuild_mod_two_pow (cc aid pos off : Nat) :
    exec (.build (cc % 2 ^ 10) (aid % 2 ^ 24) (pos % 2 ^ 21) (off % 2 ^ 20)) s = exec (.build cc aid pos off) s := by
  cases hfault : s.fault with
  | some r => rw [exec_of_fault hfault, exec_of_fault hfault]
  | none =>
    simp only [execBuild_of_none hfault, countryCode, aircraftId, position, positionOffset, operand_mod_two_pow,
      encode, placeField, trunc_mod_two_pow]

/-- Settles O5: BUILD depends on its operands through their low bits only, and no operand is checked. -/
theorem buildTruncatesItsInputs : Obligations.BuildTruncatesItsInputs :=
  fun cc aid pos off _ _ =>
    ⟨(execBuild_mod_two_pow cc aid pos off).symm,
      fun hfault hlife => execBuild_completes hfault hlife cc aid pos off⟩

/-- The low 12 bits of the truncated AircraftId are those of the operand (41_frame_builder.md R126). -/
theorem setWidth_aircraftId (aid : Nat) : (aircraftId aid).setWidth 12 = BitVec.ofNat 12 aid :=
  BitVec.setWidth_ofNat_of_le (by omega) aid

/-- The parities of the worked example of R121: the golden vector of R108, and the low 12 bits of the AircraftId. -/
theorem frameField_buildFrame_golden :
    frameField (buildFrame 0x769 0x2A5#10 0xA5F3C#24 0x1A5F3#21 0x0A5F3#20) 99 10 = 0x08A#10 ∧
    frameField (buildFrame 0x769 0x2A5#10 0xA5F3C#24 0x1A5F3#21 0x0A5F3#20) 109 12 = 0xF3C#12 := by
  obtain ⟨-, -, -, -, -, -, hpositionParity, hidParity⟩ :=
    frameField_buildFrame 0x769 0x2A5#10 0xA5F3C#24 0x1A5F3#21 0x0A5F3#20
  exact ⟨hpositionParity.trans encodePositionParity_golden, hidParity⟩

/-- Bit 79 is BUILD's reserved payload (30_encoding.md R72). -/
theorem raisesIllegalCommand_of_build_bit79 {w : Word} (hop : w.extractLsb' 0 4 = 0x3#4)
    (hbit : w.getLsbD 79 = true) : RaisesIllegalCommand w :=
  raisesIllegalCommand_of_reserved (decode_of_op3 ((extract_op_eq_iff 3#4).1 hop))
    (mt (field_eq_zero_iff 79 79).2 (field_79_79_ne_zero_iff.2 hbit))

/-- Settles O19: the frame written is the builder's, on the truncated operands. -/
theorem buildWritesTheFrame : Obligations.BuildWritesTheFrame := by
  refine ⟨fun cc aid pos off s hfault hlife => ⟨_, execBuild_of_reset hfault hlife cc aid pos off, ?_⟩,
    fun cc aid pos off s hfault hlife => execBuild_of_ne_reset hfault hlife cc aid pos off,
    fun w => raisesIllegalCommand_of_build_bit79, frameField_buildFrame_zero, frameField_buildFrame_golden⟩
  rw [← setWidth_aircraftId]
  exact frameField_buildFrame _ _ _ _ _

end Sys2Proof.Machine
end

section
/-! PROOFS. The closed form of the output (42_sample_scheduler.md R150): a tick that finds the registers of the closed
form emits the closed form's sample. From it, the period (R151, R153). -/

namespace Sys2Proof.Machine

/-! ### The closed form, in Preamble and in Data -/

theorem sampleAt_preamble {q : Params} {T : Nat} (f : Frame) (h : T % cycleLength q < 32000) :
    sampleAt q f T = carrierRead q (T % 5) := if_pos h

/-- In Data, `v` counts the ticks since the preamble ended. -/
theorem sampleAt_data {q : Params} {T v : Nat} (f : Frame) (hu : T % cycleLength q = 32000 + v) :
    sampleAt q f T = symbolRead q (if v / 500 < 121 then frameBit f (v / 500) else false) (T % 5) := by
  simp only [sampleAt, hu, Nat.add_sub_cancel_left]
  exact if_neg (by omega)

theorem transmitterAt_carrierPosition_toNat (q : Params) (T : Nat) :
    (transmitterAt q T).carrierPosition.toNat = T % 5 := by
  have hcarrier : (transmitterAt q T).carrierPosition = BitVec.ofNat 3 (T % 5) := by
    unfold transmitterAt; dsimp only; split <;> rfl
  rw [hcarrier, BitVec.toNat_ofNat]; omega

/-- The tick selects what the closed form says: the registers name the table row, the frame bit and the carrier
position of the closed form (42_sample_scheduler.md R143, R144, R150). -/
theorem selectSample_of_transmitterAt {s : State} {f : Frame} {T : Nat}
    (ht : s.transmitter = transmitterAt s.params T) (hf : s.frame = some f) :
    selectSample s = orRomFault (sampleAt s.params f T) := by
  have hcarrier : s.transmitter.carrierPosition.toNat = T % 5 := by rw [ht, transmitterAt_carrierPosition_toNat]
  by_cases hu : T % cycleLength s.params < 32000
  · have hp : s.transmitter.macroPhase = .preamble := by rw [ht, transmitterAt_preamble rfl hu]
    rw [selectSample_preamble hp, hcarrier, sampleAt_preamble f hu]
  · obtain ⟨v, hv⟩ := Nat.exists_eq_add_of_le (Nat.not_lt.1 hu)
    have hp : s.transmitter.macroPhase = .data := by rw [ht, transmitterAt_data hv]
    have hbit : s.transmitter.bitIndex.toNat = min (v / 500) 121 := by
      rw [ht, transmitterAt_data hv, BitVec.toNat_ofNat]; omega
    rw [sampleAt_data f hv]
    by_cases hk : v / 500 < 121
    · rw [selectSample_bit hp (by omega) hf, hcarrier, if_pos hk, hbit, Nat.min_eq_left hk.le]
    · rw [selectSample_guard hp (by omega), hcarrier, if_neg hk]

/-! ### What keeps the closed form -/

theorem reset_outputClosedForm (q : Params) : OutputClosedForm (State.resetWith q) := by
  have htrans : TransmitterState.reset = transmitterAt q 0 := (transmitterAt_preamble (Nat.zero_mod _) (by decide)).symm
  exact ⟨fun _ => rfl, fun h => absurd rfl h, htrans, fun f hf => by simp at hf⟩

/-- Before Running nothing is written, so a new frame or lifecycle state has no sample to contradict. -/
theorem outputClosedForm_of_not_running {s t : State} (h : OutputClosedForm s) (hl : s.life ≠ .running)
    (ht : t.transmitter = s.transmitter) (ho : t.out = s.out) (hq : t.params = s.params) (hframe : t.frame.isSome) :
    OutputClosedForm t := by
  obtain ⟨hout, -, htrans, -⟩ := h
  have ho' : t.out = [] := ho.trans (hout hl)
  exact ⟨fun _ => ho', fun _ => hframe, by rw [ht, htrans, hq, ho], fun f _ T c hc => by simp [ho'] at hc⟩

/-- The sample a tick appends is the closed form's for its index, and the registers advance with it. -/
theorem outputClosedForm_tick {s : State} {v : Sample} (hq : s.params.guardSymbols ≠ 0) (hl : s.life = .running)
    (hv : selectSample s = .ok v) (h : OutputClosedForm s) :
    OutputClosedForm ((emitSample v s).setTransmitter (advance s.params s.transmitter)) := by
  obtain ⟨-, hframe, htrans, hsamples⟩ := h
  refine ⟨fun hne => absurd hl hne, hframe, ?_, fun f hf T c hc => ?_⟩
  · show advance s.params s.transmitter = transmitterAt s.params (s.out ++ [_]).length
    rw [List.length_append, List.length_singleton, ← advance_transmitterAt hq, ← htrans]
  · change (s.out ++ [⟨v, s.params.sampleWidth⟩])[T]? = some c at hc
    obtain ⟨hT, -⟩ := List.getElem?_eq_some_iff.1 hc
    rw [List.length_append, List.length_singleton] at hT
    rcases Nat.lt_succ_iff_lt_or_eq.1 hT with hT | rfl
    · exact hsamples f hf T c (List.getElem?_append_left hT ▸ hc)
    · rw [List.getElem?_concat_length] at hc
      cases hc
      exact orRomFault_eq_ok.1 ((selectSample_of_transmitterAt htrans hf).symm.trans hv)

theorem Effect.outputClosedForm {s t : State} {i : Instr} (hq : s.params.guardSymbols ≠ 0) (e : Effect s i t)
    (h : OutputClosedForm s) : OutputClosedForm t := by
  have ⟨_, hframe, _, _⟩ := h
  cases e with
  | tick _ hl hv => exact outputClosedForm_tick hq hl hv h
  | build _ hl => exact outputClosedForm_of_not_running h (by simp [hl]) rfl rfl rfl rfl
  | cfgSink _ hl => exact outputClosedForm_of_not_running h (by simp [hl]) rfl rfl rfl (hframe (by simp [hl]))
  | cfgTick _ hl => exact outputClosedForm_of_not_running h (by simp [hl]) rfl rfl rfl (hframe (by simp [hl]))
  | enable _ hl => exact outputClosedForm_of_not_running h (by simp [hl]) rfl rfl rfl (hframe (by simp [hl]))
  | _ => exact h

/-- Settles O43: every operation keeps the closed form, TICK by `advance_transmitterAt` and
`selectSample_of_transmitterAt`, and a step answers only where GUARD_SYMBOLS is not 0. -/
theorem stepKeepsTheOutputClosedForm : Obligations.StepKeepsTheOutputClosedForm := by
  refine ⟨reset_outputClosedForm, fun s t _ h hstep => ?_⟩
  obtain ⟨hconfig, ⟨-, rfl⟩ | ⟨_, i, -, -, hexec⟩ | ⟨_, _, -, -, hill⟩⟩ := step_cases hstep
  · exact h
  · obtain ⟨-, -, hguard⟩ := configRefusal_eq_none.1 hconfig
    exact Effect.outputClosedForm (s := s.dropWord) hguard (exec_effect hexec) h
  · rcases illegalCommand_next hill with rfl | ⟨-, rfl⟩ <;> exact h

/-! ### The period (42_sample_scheduler.md R151 to R153) -/

/-- The cycle is a whole number of carrier cycles. -/
theorem five_dvd_cycleLength (q : Params) : 5 ∣ cycleLength q := by
  rw [cycleLength_eq]; omega

theorem sampleAt_add_cycleLength (q : Params) (f : Frame) (T : Nat) :
    sampleAt q f (T + cycleLength q) = sampleAt q f T := by
  have hdvd := five_dvd_cycleLength q
  have hcarrier : (T + cycleLength q) % 5 = T % 5 := by omega
  simp only [sampleAt, Nat.add_mod_right, hcarrier]

/-- After a whole number of cycles the registers are those of reset. -/
theorem transmitterAt_of_mod_cycleLength_eq_zero {q : Params} {T : Nat} (h : T % cycleLength q = 0) :
    transmitterAt q T = TransmitterState.reset := by
  have hcarrier : T % 5 = 0 :=
    Nat.mod_eq_zero_of_dvd ((five_dvd_cycleLength q).trans (Nat.dvd_of_mod_eq_zero h))
  rw [transmitterAt_preamble h (by decide), hcarrier]
  rfl

/-- Settles O49: the closed form has period `L`, and at its multiples the registers of reset. -/
theorem outputIsPeriodic : Obligations.OutputIsPeriodic := by
  rintro s f - ⟨-, -, htrans, hsamples⟩ hf
  refine ⟨fun T a b ha hb => Option.some.inj ?_,
    fun hlen => htrans.trans (transmitterAt_of_mod_cycleLength_eq_zero hlen)⟩
  calc some a.sample = sampleAt s.params f T := (hsamples f hf T a ha).symm
    _ = sampleAt s.params f (T + cycleLength s.params) := (sampleAt_add_cycleLength s.params f T).symm
    _ = some b.sample := hsamples f hf _ b hb

end Sys2Proof.Machine
end

section
/-! PROOFS. One tick of the sample scheduler: the sample it emits, the registers it leaves, and that it is defined in
every state in range (42_sample_scheduler.md R143 to R149, R155). -/

namespace Sys2Proof.Machine

/-! ### A tick that completes (42_sample_scheduler.md R142 to R145) -/

variable {s : State}

theorem execTick_completes (hfault : NoFault s) (hlife : s.life = .running)
    (hcarrier : s.transmitter.carrierPosition.toNat ≤ 4)
    (hframe : s.transmitter.macroPhase = .data → s.transmitter.bitIndex.toNat < 121 → s.frame.isSome) :
    ∃ v, selectSample s = .ok v ∧
      exec .tick s = .next ((emitSample v s).setTransmitter (advance s.params s.transmitter)) := by
  obtain ⟨v, hv⟩ := selectSample_ok (Nat.lt_succ_of_le hcarrier) hframe
  exact ⟨v, hv, execTick_of_sample hfault hlife hv⟩

/-- The registers after a tick that completes are those of the advance. -/
theorem execTick_transmitter (hfault : NoFault s) (hlife : s.life = .running)
    (hcarrier : s.transmitter.carrierPosition.toNat ≤ 4)
    (hframe : s.transmitter.macroPhase = .data → s.transmitter.bitIndex.toNat < 121 → s.frame.isSome)
    {u : TransmitterState} (hu : advance s.params s.transmitter = u) :
    ∃ t, exec .tick s = .next t ∧ t.transmitter = u := by
  obtain ⟨v, -, hexec⟩ := execTick_completes hfault hlife hcarrier hframe
  exact ⟨_, hexec, hu⟩

theorem symbolRead_eq_some {q : Params} {b : Bool} {p : Nat} {v : Sample} (h : symbolRead q b p = some v) :
    ∃ row, q.symbolSamples[b.toNat]? = some row ∧ row[p]? = some v := by
  unfold symbolRead at h
  split at h
  · next row hrow => exact ⟨row, hrow, h⟩
  · cases h

/-- Settles O31: the tick completes by `execTick_completes`, and the sample it selected is the entry of the table
row that the phase and the bit index name. -/
theorem tickEmitsTheSelectedSample : Obligations.TickEmitsTheSelectedSample := by
  intro s hfault hlife hcarrier hframe
  obtain ⟨v, hv, hexec⟩ := execTick_completes hfault hlife hcarrier hframe
  refine ⟨v, hexec, fun hp => ?_, fun hp hb f hf => ?_, fun hp hb => ?_⟩
  · exact orRomFault_eq_ok.1 ((selectSample_preamble hp).symm.trans hv)
  · exact symbolRead_eq_some (orRomFault_eq_ok.1 ((selectSample_bit hp hb hf).symm.trans hv))
  · exact symbolRead_eq_some (orRomFault_eq_ok.1 ((selectSample_guard hp hb).symm.trans hv))

/-- Settles O33: an unfaulted tick in Running advances the registers, and no other operation writes them. -/
theorem everyTickAdvancesTheCarrier : Obligations.EveryTickAdvancesTheCarrier := by
  refine ⟨fun s t hfault hlife hexec => ?_, fun i s t _ hi hexec => by rw [exec_transmitter_eq hi hexec]⟩
  cases exec_effect hexec with
  | tick => exact advance_carrierPosition_toNat s.params s.transmitter
  | faulted hf => rw [hfault] at hf; cases hf
  | tickFault _ hne => exact absurd hlife hne

/-! ### Runs of ticks within one phase (42_sample_scheduler.md R147 to R149) -/

variable {q : Params} {t : TransmitterState}

/-- Within the budget, Preamble counts the ticks taken. -/
theorem iterate_advance_preamble (hp : t.macroPhase = .preamble) (hcount : t.preambleTickCount = 0#15) :
    ∀ n < 32000, ((advance q)^[n] t).macroPhase = .preamble ∧ ((advance q)^[n] t).preambleTickCount.toNat = n
  | 0, _ => ⟨hp, by simp [hcount]⟩
  | n + 1, hn => by
    obtain ⟨hphase, hcount'⟩ := iterate_advance_preamble hp hcount n (by omega)
    rw [Function.iterate_succ_apply', advance_preamble_within hphase (by omega)]
    exact ⟨hphase, by bv_omega⟩

/-- Settles O34: `advance` in Preamble by cases, and the count of `iterate_advance_preamble` up to the last tick. -/
theorem preambleLastsItsTickBudget : Obligations.PreambleLastsItsTickBudget := by
  refine ⟨fun s hfault hlife hcarrier hp => ?_, fun s _ hp hcount n => ⟨fun hn => ?_, fun hn => ?_⟩⟩
  · refine execTick_transmitter hfault hlife hcarrier (fun hd => absurd (hp.symm.trans hd) nofun) ?_
    split
    · next hend => exact advance_preamble_end hp hend
    · next hend => exact advance_preamble_within hp hend
  · exact (iterate_advance_preamble hp hcount n hn).1
  · obtain ⟨m, rfl⟩ := Nat.exists_eq_succ_of_ne_zero (show n ≠ 0 by omega)
    obtain ⟨hphase, hcount'⟩ := iterate_advance_preamble (q := s.params) hp hcount m (by omega)
    rw [Function.iterate_succ_apply', advance_preamble_end hphase (by omega)]

/-- Within a symbol, Data counts the ticks taken and keeps the bit index. -/
theorem iterate_advance_symbol (hp : t.macroPhase = .data) (hcount : t.symbolTickCount = 0#9) :
    ∀ n < 500, ((advance q)^[n] t).macroPhase = .data ∧ ((advance q)^[n] t).symbolTickCount.toNat = n ∧
      ((advance q)^[n] t).bitIndex = t.bitIndex
  | 0, _ => ⟨hp, by simp [hcount], rfl⟩
  | n + 1, hn => by
    obtain ⟨hphase, hcount', hbit⟩ := iterate_advance_symbol hp hcount n (by omega)
    rw [Function.iterate_succ_apply', advance_symbol_within hphase (by omega)]
    exact ⟨hphase, by bv_omega, hbit⟩

/-- Settles O35: `advance` on a frame bit by cases, and the count of `iterate_advance_symbol` up to the bit's last
tick. -/
theorem eachFrameBitIsHeldForItsTicks : Obligations.EachFrameBitIsHeldForItsTicks := by
  refine ⟨fun s hfault hlife hcarrier hp hb hframe => ?_,
    fun s _ hp hcount hb n => ⟨fun hn => ?_, fun hn => ?_⟩⟩
  · refine execTick_transmitter hfault hlife hcarrier (fun _ _ => hframe) ?_
    split
    · next hend => exact advance_bit_end hp hend hb
    · next hend => exact advance_symbol_within hp hend
  · obtain ⟨hphase, -, hbit⟩ := iterate_advance_symbol (q := s.params) hp hcount n hn
    exact ⟨hphase, hbit⟩
  · obtain ⟨m, rfl⟩ := Nat.exists_eq_succ_of_ne_zero (show n ≠ 0 by omega)
    obtain ⟨hphase, hcount', hbit⟩ := iterate_advance_symbol (q := s.params) hp hcount m (by omega)
    rw [Function.iterate_succ_apply', advance_bit_end hphase (by omega) (by rwa [hbit])]
    exact ⟨hphase, rfl, by bv_omega⟩

/-- Within the guard interval, `n` ticks are `n / 500` symbols and `n % 500` ticks of the next. -/
theorem iterate_advance_guard (hp : t.macroPhase = .data) (hcount : t.symbolTickCount = 0#9)
    (hbit : t.bitIndex = 121#7) (hguard : t.guardSymbolCount = 0) :
    ∀ n < q.guardSymbols * 500, ((advance q)^[n] t).macroPhase = .data ∧ ((advance q)^[n] t).bitIndex = 121#7 ∧
      ((advance q)^[n] t).symbolTickCount.toNat = n % 500 ∧ ((advance q)^[n] t).guardSymbolCount = n / 500
  | 0, _ => ⟨hp, hbit, by simp [hcount], hguard⟩
  | n + 1, hn => by
    obtain ⟨hphase, hbit', hcount', hguard'⟩ := iterate_advance_guard hp hcount hbit hguard n (by omega)
    rw [Function.iterate_succ_apply']
    by_cases hend : n % 500 + 1 = 500
    · rw [advance_guard_within hphase (by omega) (by simp [hbit']) (by omega)]
      exact ⟨hphase, hbit', show 0 = (n + 1) % 500 by omega, show _ + 1 = (n + 1) / 500 by omega⟩
    · rw [advance_symbol_within hphase (by omega)]
      exact ⟨hphase, hbit', by bv_omega, hguard'.trans (by omega)⟩

theorem step_of_guardSymbols_eq_zero (hlo : 0x400 ≤ s.params.genPoly) (hhi : s.params.genPoly ≤ 0x7FF)
    (hguard : s.params.guardSymbols = 0) : step s = .refused .guardSymbolsZero := by
  have hrefusal : configRefusal s.params = some .guardSymbolsZero := by
    rw [configRefusal, if_neg (by omega), if_pos hguard]
  simp only [step, hrefusal]

/-- Settles O36: `advance` in the guard interval by cases, the count of `iterate_advance_guard` up to the last
tick, and the refusal. -/
theorem guardLastsItsSymbols : Obligations.GuardLastsItsSymbols := by
  refine ⟨fun s hfault hlife hcarrier hp hb hguard => ?_,
    fun s _ hne hp hcount hbit hguard n => ⟨fun hn => ?_, fun hn => ?_⟩,
    fun s _ => step_of_guardSymbols_eq_zero⟩
  · refine execTick_transmitter hfault hlife hcarrier (fun _ hlt => absurd hb hlt.ne) ?_
    split
    · next hend =>
      split
      · next hlast => exact advance_guard_end hp hend hb.ge hlast
      · next hlast => exact advance_guard_within hp hend hb.ge (by omega)
    · next hend => exact advance_symbol_within hp hend
  · obtain ⟨hphase, hbit', -, -⟩ := iterate_advance_guard (q := s.params) hp hcount hbit hguard n hn
    exact ⟨hphase, hbit'⟩
  · obtain ⟨m, rfl⟩ := Nat.exists_eq_succ_of_ne_zero (show n ≠ 0 by omega)
    obtain ⟨hphase, hbit', hcount', hguard'⟩ :=
      iterate_advance_guard (q := s.params) hp hcount hbit hguard m (by omega)
    rw [Function.iterate_succ_apply', advance_guard_end hphase (by omega) (by simp [hbit']) (by omega)]
    rfl

/-! ### No error path (42_sample_scheduler.md R155) -/

/-- Every state of the startup contract has its frame when a tick in Running reads it. -/
theorem frame_isSome_of_startupConsistent (h : StartupConsistent s) (hlife : s.life = .running) : s.frame.isSome := by
  obtain ⟨hframe, -, -⟩ := h
  rw [Option.isSome_iff_ne_none, ne_eq, ← hframe, hlife]
  nofun

theorem execTick_of_reached (hfault : NoFault s) (hlife : s.life = .running) (h : Reached s) :
    ∃ v, exec .tick s = .next ((emitSample v s).setTransmitter (advance s.params s.transmitter)) := by
  obtain ⟨⟨hcarrier, -⟩, hstartup⟩ := h
  obtain ⟨v, -, hexec⟩ :=
    execTick_completes hfault hlife hcarrier fun _ _ => frame_isSome_of_startupConsistent hstartup hlife
  exact ⟨v, hexec⟩

/-- Only a tick in Running can stop, and none does in a reached state. -/
theorem exec_completes (h : Reached s) (i : Instr) : ∃ t, exec i s = .next t := by
  cases hfault : s.fault with
  | some r => exact ⟨s, exec_of_fault hfault i⟩
  | none =>
    cases i with
    | encPos d => exact ⟨_, execEncPos_of_none hfault d⟩
    | encId d => exact ⟨_, execEncId_of_none hfault d⟩
    | build cc aid pos off => rw [execBuild_of_none hfault]; split <;> exact ⟨_, rfl⟩
    | cfgSink => rw [execCfgSink_of_none hfault]; split <;> exact ⟨_, rfl⟩
    | cfgTick rate => rw [execCfgTick_of_none hfault]; split_ifs <;> exact ⟨_, rfl⟩
    | enable => rw [execEnable_of_none hfault]; split <;> exact ⟨_, rfl⟩
    | tick =>
      by_cases hlife : s.life = .running
      · obtain ⟨v, hexec⟩ := execTick_of_reached hfault hlife h
        exact ⟨_, hexec⟩
      · exact ⟨_, execTick_of_notRunning hfault hlife⟩
    | dbgRead =>
      cases hd : s.dbg with
      | some v => exact ⟨_, execDbgRead_of_value hfault hd⟩
      | none => exact ⟨_, execDbgRead_of_noValue hfault hd⟩

theorem illegalCommand_completes (w : Word) (s : State) : ∃ t, illegalCommand w s = .next t := by
  rcases unlessFaulted_cases s fun s => .next (s.raiseFault .illegalCommand w) with ⟨-, h⟩ | ⟨-, h⟩
  · exact ⟨_, h⟩
  · exact ⟨_, h⟩

theorem step_completes (hconfig : ConfigAccepted s.params) (h : Reached s) : ∃ t, step s = .next t := by
  have hc := configRefusal_eq_none.2 hconfig
  cases hw : s.nextWord with
  | none => exact ⟨s, by simp only [step, hc, hw]⟩
  | some w =>
    cases hd : decode w with
    | op i => rw [step_of_op hc hw hd]; exact exec_completes (s := s.dropWord) h i
    | illegal why => rw [step_of_illegal hc hw hd]; exact illegalCommand_completes w s.dropWord

/-- Settles O48: the tick of a reached state completes and `advance` keeps the ranges, and a step is a wait, an
operation or an illegal word, each of which completes. -/
theorem reachedStatesNeverStop : Obligations.ReachedStatesNeverStop := by
  refine fun s _ h hconfig => ⟨fun hfault hlife => ?_, step_completes hconfig h⟩
  obtain ⟨v, hexec⟩ := execTick_of_reached hfault hlife h
  obtain ⟨hrange, -⟩ := h
  obtain ⟨-, -, hguard⟩ := hconfig
  exact ⟨_, hexec, hfault, advance_inRange hguard hrange, fun hcount => carrierCountsTicks_of_tick hcount rfl rfl⟩

end Sys2Proof.Machine
end

section
/-! PROOFS. The control interface (43_control_interface.md R180 to R183): what CFG_SINK, CFG_TICK, ENABLE and DBG_READ
answer in an unfaulted block, and that nothing leaves Running. -/

namespace Sys2Proof.Machine

variable {s : State}

/-! ### CFG_SINK (43_control_interface.md R180) -/

theorem execCfgSink_of_built (hfault : NoFault s) (hlife : s.life = .built) :
    exec .cfgSink s = .next (s.setLife .sinkReady) := by
  rw [execCfgSink_of_none hfault, if_pos hlife]

theorem execCfgSink_of_ne_built (hfault : NoFault s) (hlife : s.life ≠ .built) :
    exec .cfgSink s = .next (s.raiseFault .sequence (encode .cfgSink)) := by
  rw [execCfgSink_of_none hfault, if_neg hlife]

/-- Settles O25: the lifecycle check decides between SinkReady and SEQUENCE, and each writes its own register only. -/
theorem cfgSinkTakesBuiltToSinkReady : Obligations.CfgSinkTakesBuiltToSinkReady :=
  ⟨fun _ => execCfgSink_of_built, fun _ => execCfgSink_of_ne_built,
    fun _ hop => raisesIllegalCommand_of_reserved (decode_of_op4 ((extract_op_eq_iff 4#4).1 hop))⟩

/-! ### CFG_TICK (43_control_interface.md R181) -/

theorem execCfgTick_of_rate {rate : Nat} (hfault : NoFault s) (hlife : s.life = .sinkReady)
    (hrate : (tickRate rate).toNat = 200000) : exec (.cfgTick rate) s = .next (s.setLife .tickConfigured) := by
  rw [execCfgTick_of_none hfault, if_pos hlife, if_pos hrate]

theorem execCfgTick_of_badRate {rate : Nat} (hfault : NoFault s) (hlife : s.life = .sinkReady)
    (hrate : (tickRate rate).toNat ≠ 200000) :
    exec (.cfgTick rate) s = .next (s.raiseFault .badConfig (encode (.cfgTick rate))) := by
  rw [execCfgTick_of_none hfault, if_pos hlife, if_neg hrate]

theorem execCfgTick_of_ne_sinkReady (rate : Nat) (hfault : NoFault s) (hlife : s.life ≠ .sinkReady) :
    exec (.cfgTick rate) s = .next (s.raiseFault .sequence (encode (.cfgTick rate))) := by
  rw [execCfgTick_of_none hfault, if_neg hlife]

/-- A rate of 18 bits is not truncated. -/
theorem tickRate_toNat_of_lt {rate : Nat} (h : rate < 2 ^ 18) : (tickRate rate).toNat = rate :=
  (tickRate_toNat rate).trans (Nat.mod_eq_of_lt h)

/-- Settles O26: the lifecycle check comes before the rate check, and a rate of 18 bits is compared as it is. -/
theorem cfgTickTakesSinkReadyToTickConfigured : Obligations.CfgTickTakesSinkReadyToTickConfigured := by
  refine ⟨fun s hfault hlife => ?_, fun rate s hfault hlife hwidth hrate => ?_,
    fun rate _ => execCfgTick_of_ne_sinkReady rate, fun w hop => ?_⟩
  · exact execCfgTick_of_rate hfault hlife (tickRate_toNat_of_lt (by decide))
  · exact execCfgTick_of_badRate hfault hlife ((tickRate_toNat_of_lt hwidth).trans_ne hrate)
  · exact raisesIllegalCommand_of_reserved (decode_of_op5 ((extract_op_eq_iff 5#4).1 hop))

/-! ### ENABLE (43_control_interface.md R182) -/

theorem execEnable_of_tickConfigured (hfault : NoFault s) (hlife : s.life = .tickConfigured) :
    exec .enable s = .next (s.setLife .running) := by
  rw [execEnable_of_none hfault, if_pos hlife]

theorem execEnable_of_ne_tickConfigured (hfault : NoFault s) (hlife : s.life ≠ .tickConfigured) :
    exec .enable s = .next (s.raiseFault .sequence (encode .enable)) := by
  rw [execEnable_of_none hfault, if_neg hlife]

/-- No move of the startup contract starts in Running. -/
theorem StartupMove.ne_running {i : Instr} {l l' : Life} (h : StartupMove i l l') : l ≠ .running := by
  rcases h with ⟨-, rfl, -⟩ | ⟨-, rfl, -⟩ | ⟨-, rfl, -⟩ | ⟨-, rfl, -⟩ <;> nofun

/-- There is no disable: an operation that finds the block in Running leaves it there. -/
theorem Effect.life_running {t : State} {i : Instr} (e : Effect s i t) (hlife : s.life = .running) :
    t.life = .running := by
  rcases e.life_cases with hsame | hmove
  · exact hsame.trans hlife
  · exact absurd hlife hmove.ne_running

/-- Settles O27: the lifecycle check decides between Running and SEQUENCE, and no move of the startup contract
starts in Running. -/
theorem enableTakesTickConfiguredToRunning : Obligations.EnableTakesTickConfiguredToRunning :=
  ⟨fun _ => execEnable_of_tickConfigured, fun _ => execEnable_of_ne_tickConfigured,
    fun _ hop => raisesIllegalCommand_of_reserved (decode_of_op6 ((extract_op_eq_iff 6#4).1 hop)),
    fun _ _ _ _ hlife hexec => (exec_effect hexec).life_running hlife⟩

/-! ### DBG_READ (43_control_interface.md R183) -/

/-- Settles O28: the mirror decides between its value and DEBUG_NO_VALUE, and `life` is not read. -/
theorem dbgReadReturnsTheMirror : Obligations.DbgReadReturnsTheMirror :=
  ⟨fun _ _ => execDbgRead_of_value, fun _ => execDbgRead_of_noValue,
    fun _ hop => raisesIllegalCommand_of_reserved (decode_of_op8 ((extract_op_eq_iff 8#4).1 hop))⟩

end Sys2Proof.Machine
end

section
/-! PROOFS. A legal word is the word of the operation it decodes to (30_encoding.md R70 to R74). -/

namespace Sys2Proof

variable {w : Word} {i : Instr}

/-- A field is below 2 to its width (30_encoding.md R73). -/
theorem field_lt (w : Word) (hi lo : Nat) : w.field hi lo < 2 ^ (hi + 1 - lo) :=
  Nat.mod_lt _ (Nat.two_pow_pos _)

/-- The inversion of the decoder's legal verdict: the row of R71, its reserved payload 0, its operands the fields of
R72. -/
theorem decode_op_cases (hd : decode w = .op i) :
    (w.field 3 0 = 1 ∧ w.field 79 25 = 0 ∧ .encPos (w.field 24 4) = i) ∨
    (w.field 3 0 = 2 ∧ w.field 79 16 = 0 ∧ .encId (w.field 15 4) = i) ∨
    (w.field 3 0 = 3 ∧ w.field 79 79 = 0 ∧
      .build (w.field 13 4) (w.field 37 14) (w.field 58 38) (w.field 78 59) = i) ∨
    (w.field 3 0 = 4 ∧ w.field 79 4 = 0 ∧ .cfgSink = i) ∨
    (w.field 3 0 = 5 ∧ w.field 79 22 = 0 ∧ .cfgTick (w.field 21 4) = i) ∨
    (w.field 3 0 = 6 ∧ w.field 79 4 = 0 ∧ .enable = i) ∨
    (w.field 3 0 = 7 ∧ w.field 79 4 = 0 ∧ .tick = i) ∨
    (w.field 3 0 = 8 ∧ w.field 79 4 = 0 ∧ .dbgRead = i) := by
  by_cases hreserved : w.field 3 0 = 0 ∨ 9 ≤ w.field 3 0
  · rw [decode_of_reservedOp hreserved] at hd
    cases hd
  · have hop : w.field 3 0 = 1 ∨ w.field 3 0 = 2 ∨ w.field 3 0 = 3 ∨ w.field 3 0 = 4 ∨ w.field 3 0 = 5 ∨
        w.field 3 0 = 6 ∨ w.field 3 0 = 7 ∨ w.field 3 0 = 8 := by omega
    rcases hop with h | h | h | h | h | h | h | h
    · simpa [decode_of_op1 h, whenReservedZero_eq_op, h] using hd
    · simpa [decode_of_op2 h, whenReservedZero_eq_op, h] using hd
    · simpa [decode_of_op3 h, whenReservedZero_eq_op, h] using hd
    · simpa [decode_of_op4 h, whenReservedZero_eq_op, h] using hd
    · simpa [decode_of_op5 h, whenReservedZero_eq_op, h] using hd
    · simpa [decode_of_op6 h, whenReservedZero_eq_op, h] using hd
    · simpa [decode_of_op7 h, whenReservedZero_eq_op, h] using hd
    · simpa [decode_of_op8 h, whenReservedZero_eq_op, h] using hd

/-- The operands of a decoded operation fit their fields. -/
theorem wellFormed_of_decode (hd : decode w = .op i) : i.wellFormed = true := by
  obtain ⟨-, -, rfl⟩ | ⟨-, -, rfl⟩ | ⟨-, -, rfl⟩ | ⟨-, -, rfl⟩ | ⟨-, -, rfl⟩ | ⟨-, -, rfl⟩ | ⟨-, -, rfl⟩ |
    ⟨-, -, rfl⟩ := decode_op_cases hd
  · exact decide_eq_true (field_lt w 24 4)
  · exact decide_eq_true (field_lt w 15 4)
  · simpa [Instr.wellFormed] using
      And.intro ⟨⟨field_lt w 13 4, field_lt w 37 14⟩, field_lt w 58 38⟩ (field_lt w 78 59)
  · rfl
  · exact decide_eq_true (field_lt w 21 4)
  · rfl
  · rfl
  · rfl

/-- The word is the sum of its fields, so the encoder's placement of the decoded operands gives it back. -/
theorem encode_of_decode (hd : decode w = .op i) : encode i = w := by
  have hw := w.isLt
  refine BitVec.eq_of_toNat_eq ?_
  obtain ⟨hop, hres, rfl⟩ | ⟨hop, hres, rfl⟩ | ⟨hop, hres, rfl⟩ | ⟨hop, hres, rfl⟩ | ⟨hop, hres, rfl⟩ |
    ⟨hop, hres, rfl⟩ | ⟨hop, hres, rfl⟩ | ⟨hop, hres, rfl⟩ := decode_op_cases hd
  all_goals
    simp only [encode, placeField, trunc, Word.field, bitSlice, BitVec.toNat_ofNat] at hop hres ⊢
    omega

end Sys2Proof
end

section
/-! PROOFS. The recorded fault and the order of the fault checks (60_exceptions.md R202, R206). -/

namespace Sys2Proof.Machine

variable {s : State} {w : Word}

/-! ### A recorded fault stops the block (60_exceptions.md R202) -/

/-- A faulted block takes the next word and changes nothing else, whatever the word. -/
theorem step_of_fault_of_word {r : FaultRecord} (hconfig : ConfigAccepted s.params) (hfault : s.fault = some r)
    (hnext : s.nextWord = some w) : step s = .next s.dropWord := by
  have hc := configRefusal_eq_none.2 hconfig
  cases hd : decode w with
  | op i => rw [step_of_op hc hnext hd]; exact exec_of_fault (s := s.dropWord) hfault i
  | illegal why => rw [step_of_illegal hc hnext hd]; exact unlessFaulted_of_some (s := s.dropWord) hfault _

/-- With no word to run the block waits (70_reset_and_hazards.md R231). -/
theorem step_of_noWord (hconfig : ConfigAccepted s.params) (hnext : s.nextWord = none) : step s = .next s := by
  simp only [step, configRefusal_eq_none.2 hconfig, hnext]

/-- Where no word stands there is none to take. -/
theorem dropWord_of_noWord (hnext : s.nextWord = none) : s.dropWord = s := by
  cases hp : s.pending with
  | nil => cases s; cases hp; rfl
  | cons w ws => rw [nextWord_of_pending hp] at hnext; cases hnext

/-- Settles O10: every operation is guarded by the fault register, and a step takes its word or, with none standing,
waits. -/
theorem recordedFaultStopsTheBlock : Obligations.RecordedFaultStopsTheBlock := by
  refine fun s r hfault => ⟨exec_of_fault hfault, fun hconfig => ?_⟩
  change step s = .next s.dropWord
  cases hnext : s.nextWord with
  | none => rw [step_of_noWord hconfig hnext, dropWord_of_noWord hnext]
  | some w => exact step_of_fault_of_word hconfig hfault hnext

/-! ### The first fault in the order of priority (60_exceptions.md R206) -/

/-- An operation that raises a fault records the word it was decoded from. -/
theorem step_of_raise {i : Instr} {code : FaultCode} (hconfig : ConfigAccepted s.params)
    (hnext : s.nextWord = some w) (hd : decode w = .op i)
    (hraise : exec i s.dropWord = .next (s.dropWord.raiseFault code (encode i))) :
    step s = .next (s.dropWord.raiseFault code w) := by
  rw [step_of_op (configRefusal_eq_none.2 hconfig) hnext hd, hraise, encode_of_decode hd]

/-- A decoded rate is compared as it stands in the word, without truncation. -/
theorem tickRate_toNat_of_decode {rate : Nat} (hd : decode w = .op (.cfgTick rate)) : (tickRate rate).toNat = rate :=
  tickRate_toNat_of_lt (of_decide_eq_true (wellFormed_of_decode hd))

/-- Settles O11: the decoder's verdict comes first, and each operation's checks are tried in the order of its own
equations. -/
theorem firstFaultInPriorityIsReported : Obligations.FirstFaultInPriorityIsReported := by
  intro s w hconfig hnext
  refine ⟨fun r hfault => step_of_fault_of_word hconfig hfault hnext, fun hfault => ?_⟩
  have hfault' : NoFault s.dropWord := hfault
  refine ⟨fun why hd => raisesIllegalCommand_of_illegal hd s hconfig hfault hnext, fun rate hd hlife => ?_,
    fun rate hd hlife hrate => ?_, ?_, fun hd hlife => ?_, fun hd hdbg => ?_⟩
  · exact step_of_raise hconfig hnext hd (execCfgTick_of_ne_sinkReady rate hfault' hlife)
  · have hrate' := (tickRate_toNat_of_decode hd).trans_ne hrate
    exact step_of_raise hconfig hnext hd (execCfgTick_of_badRate hfault' hlife hrate')
  · rintro (⟨hd, hlife⟩ | ⟨hd, hlife⟩ | ⟨⟨cc, aid, pos, off, hd⟩, hlife⟩)
    · exact step_of_raise hconfig hnext hd (execCfgSink_of_ne_built hfault' hlife)
    · exact step_of_raise hconfig hnext hd (execEnable_of_ne_tickConfigured hfault' hlife)
    · exact step_of_raise hconfig hnext hd (execBuild_of_ne_reset hfault' hlife cc aid pos off)
  · exact step_of_raise hconfig hnext hd (execTick_of_notRunning hfault' hlife)
  · exact step_of_raise hconfig hnext hd (execDbgRead_of_noValue hfault' hdbg)

end Sys2Proof.Machine
end

section
/-! PROOFS. The state after reset (70_reset_and_hazards.md R230). -/

namespace Sys2Proof.Machine

/-- The register rows of R230's table: Preamble and every counter 0. -/
theorem transmitterReset_eq : TransmitterState.reset = ⟨.preamble, 0#3, 0#15, 0#9, 0#7, 0⟩ := rfl

/-- Settles O50: one law of reset per row of R230's table, the scheduler's rows together, whatever the parameters. -/
theorem resetState : Obligations.ResetState := fun q =>
  ⟨(resetWith_transmitter q).trans transmitterReset_eq, resetWith_frame q, resetWith_life q, resetWith_dbg q,
    resetWith_fault q, resetWith_params q, resetWith_out q, reset_eq_resetWith⟩

end Sys2Proof.Machine
end

section
/-! PROOFS. Every command word of an operation is read back (30_encoding.md R70 to R74), and a wide operand acts as its
low bits (30_encoding.md R73, R75). -/

namespace Sys2Proof

/-! ### The fields of an encoded operation -/

theorem field_3_0_eq_mod (w : Word) : w.field 3 0 = w.toNat % 16 := by simp [Word.field, bitSlice]

theorem field_79_eq_zero_of_lt {w : Word} {lo : Nat} (h : w.toNat < 2 ^ lo) : w.field 79 lo = 0 := by
  rw [Word.field, bitSlice, Nat.div_eq_of_lt h, Nat.zero_mod]

theorem tableRow_statement (i : Instr) : Laws.TableRow.Statement i := by
  cases i with
  | encPos d => exact Laws.TableRow.encPos d
  | encId d => exact Laws.TableRow.encId d
  | build cc aid pos off => exact Laws.TableRow.build cc aid pos off
  | cfgSink => exact Laws.TableRow.cfgSink
  | cfgTick rate => exact Laws.TableRow.cfgTick rate
  | enable => exact Laws.TableRow.enable
  | tick => exact Laws.TableRow.tick
  | dbgRead => exact Laws.TableRow.dbgRead

/-- The `op` field holds the opcode of the operation's row (30_encoding.md R71). -/
theorem field_3_0_encode (i : Instr) : (encode i).field 3 0 = (Laws.TableRow.row i).1 :=
  (field_3_0_eq_mod _).trans (tableRow_statement i).1

/-- The reserved payload of an encoded operation is 0 (30_encoding.md R72). -/
theorem field_79_encode (i : Instr) : (encode i).field 79 (Laws.TableRow.row i).2 = 0 :=
  field_79_eq_zero_of_lt (tableRow_statement i).2

theorem field_encode_encPos (d : Nat) : (encode (.encPos d)).field 24 4 = trunc 21 d := by
  simp only [encode, placeField, trunc, Word.field, bitSlice, BitVec.toNat_ofNat]; omega

theorem field_encode_encId (d : Nat) : (encode (.encId d)).field 15 4 = trunc 12 d := by
  simp only [encode, placeField, trunc, Word.field, bitSlice, BitVec.toNat_ofNat]; omega

theorem field_encode_cfgTick (rate : Nat) : (encode (.cfgTick rate)).field 21 4 = trunc 18 rate := by
  simp only [encode, placeField, trunc, Word.field, bitSlice, BitVec.toNat_ofNat]; omega

theorem field_encode_build (cc aid pos off : Nat) :
    (encode (.build cc aid pos off)).field 13 4 = trunc 10 cc ∧
    (encode (.build cc aid pos off)).field 37 14 = trunc 24 aid ∧
    (encode (.build cc aid pos off)).field 58 38 = trunc 21 pos ∧
    (encode (.build cc aid pos off)).field 78 59 = trunc 20 off := by
  simp only [encode, placeField, trunc, Word.field, bitSlice, BitVec.toNat_ofNat]; omega

/-! ### The round trip -/

/-- An operation's word decodes to the operation with each operand reduced to its field, whatever the operands: its row
is found by the opcode, its reserved payload is 0, and each field holds the low bits of its operand. -/
theorem decode_encode (i : Instr) : decode (encode i) = .op (truncateOperands i) := by
  have hop := field_3_0_encode i
  have hreserved := field_79_encode i
  cases i with
  | encPos d =>
    exact (decode_of_op1 hop).trans (whenReservedZero_eq_op.2 ⟨hreserved, congrArg _ (field_encode_encPos d)⟩)
  | encId d =>
    exact (decode_of_op2 hop).trans (whenReservedZero_eq_op.2 ⟨hreserved, congrArg _ (field_encode_encId d)⟩)
  | build cc aid pos off =>
    obtain ⟨hcc, haid, hpos, hoff⟩ := field_encode_build cc aid pos off
    exact (decode_of_op3 hop).trans
      (whenReservedZero_eq_op.2 ⟨hreserved, by rw [hcc, haid, hpos, hoff, truncateOperands]⟩)
  | cfgSink => exact (decode_of_op4 hop).trans (whenReservedZero_of_eq hreserved)
  | cfgTick rate =>
    exact (decode_of_op5 hop).trans (whenReservedZero_eq_op.2 ⟨hreserved, congrArg _ (field_encode_cfgTick rate)⟩)
  | enable => exact (decode_of_op6 hop).trans (whenReservedZero_of_eq hreserved)
  | tick => exact (decode_of_op7 hop).trans (whenReservedZero_of_eq hreserved)
  | dbgRead => exact (decode_of_op8 hop).trans (whenReservedZero_of_eq hreserved)

theorem trunc_of_lt {n v : Nat} (h : v < 2 ^ n) : trunc n v = v := Nat.mod_eq_of_lt h

/-- Reducing the operands of a well-formed operation changes nothing. -/
theorem truncateOperands_of_wellFormed {i : Instr} (h : i.wellFormed = true) : truncateOperands i = i := by
  cases i with
  | encPos d => rw [truncateOperands, trunc_of_lt (of_decide_eq_true h)]
  | encId d => rw [truncateOperands, trunc_of_lt (of_decide_eq_true h)]
  | build cc aid pos off =>
    simp only [Instr.wellFormed, Bool.and_eq_true, decide_eq_true_eq] at h
    obtain ⟨⟨⟨hcc, haid⟩, hpos⟩, hoff⟩ := h
    rw [truncateOperands, trunc_of_lt hcc, trunc_of_lt haid, trunc_of_lt hpos, trunc_of_lt hoff]
  | cfgTick rate => rw [truncateOperands, trunc_of_lt (of_decide_eq_true h)]
  | cfgSink | enable | tick | dbgRead => rfl

/-- Settles O1: the word decodes to the operation with its operands reduced, and those of a well-formed operation
are. -/
theorem encodedOperationsDecodeToThemselves : Obligations.EncodedOperationsDecodeToThemselves :=
  fun i h => (decode_encode i).trans (congrArg Decoded.op (truncateOperands_of_wellFormed h))

/-- Settles O2: a legal word's operands are its own fields, and the word is the sum of its fields. -/
theorem legalWordsAreTheEncodingOfTheirOperation : Obligations.LegalWordsAreTheEncodingOfTheirOperation :=
  fun _ _ hd => ⟨wellFormed_of_decode hd, encode_of_decode hd⟩

/-- Settles O6: the decoder evaluated on the twelve words. -/
theorem writtenOutWordsDecode : Obligations.WrittenOutWordsDecode := by
  unfold Obligations.WrittenOutWordsDecode; decide

/-! ### Wide operands -/

/-- The reduced operation is what the word decodes to, so the word is its encoding too. -/
theorem encode_truncateOperands (i : Instr) : encode (truncateOperands i) = encode i :=
  encode_of_decode (decode_encode i)

namespace Machine

theorem operand_trunc (n v : Nat) : operand n (trunc n v) = operand n v := operand_mod_two_pow n v

/-- Each meaning reads an operand at its field's width, and so does the word that a fault records. -/
theorem exec_truncateOperands (i : Instr) (s : State) : exec (truncateOperands i) s = exec i s := by
  cases hfault : s.fault with
  | some r => rw [exec_of_fault hfault, exec_of_fault hfault]
  | none =>
    cases i with
    | encPos d => simp only [truncateOperands, execEncPos_of_none hfault, positionData, operand_trunc]
    | encId d => simp only [truncateOperands, execEncId_of_none hfault, idData, operand_trunc]
    | build cc aid pos off => exact execBuild_mod_two_pow cc aid pos off
    | cfgTick rate =>
      have hword : encode (.cfgTick (trunc 18 rate)) = encode (.cfgTick rate) := encode_truncateOperands (.cfgTick rate)
      have hrate : tickRate (trunc 18 rate) = tickRate rate := operand_trunc 18 rate
      simp only [truncateOperands, execCfgTick_of_none hfault, hrate, hword]
    | cfgSink | enable | tick | dbgRead => rfl

/-- Settles O4: the reduced operation is the one the wide operation's word decodes to, so it is well-formed and has
that word, and each meaning reads the low bits only. -/
theorem wideOperandsActAsTheirLowBits : Obligations.WideOperandsActAsTheirLowBits := fun i s =>
  ⟨wellFormed_of_decode (decode_encode i), (encode_truncateOperands i).symm,
    fun _ => (exec_truncateOperands i s).symm⟩

end Machine

end Sys2Proof
end

section
/-! PROOFS. The invariants of the whole machine: a step keeps what taking a word, each effect of an operation and an
illegal word's fault keep. With it the startup contract (10_state.md R28 to R30), the stored frame (41_frame_builder.md
R128), the sink calls (43_control_interface.md R184) and the fault records (60_exceptions.md R201, R204). -/

namespace Sys2Proof.Machine

variable {s t : State} {i : Instr}

/-- The invariant rule: a step waits, or takes a word and runs its operation, or takes an illegal word and raises
ILLEGAL_COMMAND. -/
theorem step_keeps {P : State → Prop} (hdrop : ∀ s, P s → P s.dropWord)
    (hexec : ∀ s t i, Effect s i t → P s → P t)
    (hillegal : ∀ s w why, decode w = .illegal why → P s → P (s.raiseFault .illegalCommand w))
    (h : P s) (hstep : step s = .next t) : P t := by
  obtain ⟨-, ⟨-, rfl⟩ | ⟨w, i, -, -, hnext⟩ | ⟨w, why, -, hd, hnext⟩⟩ := step_cases hstep
  · exact h
  · exact hexec _ _ i (exec_effect hnext) (hdrop s h)
  · rcases illegalCommand_next hnext with rfl | ⟨-, rfl⟩
    · exact hdrop s h
    · exact hillegal _ w why hd (hdrop s h)

/-! ### No operation raises DEADLINE_MISS (60_exceptions.md R204) -/

/-- An operation leaves the fault register, or raises a fault that is no deadline miss. -/
theorem Effect.fault_cases (e : Effect s i t) :
    t.fault = s.fault ∨ ∃ code w, code ≠ .deadlineMiss ∧ t = s.raiseFault code w := by
  cases e with
  | buildFault | cfgSinkFault | cfgTickFault | cfgTickRate | enableFault | dbgReadFault | tickFault =>
    exact .inr ⟨_, _, by decide, rfl⟩
  | _ => exact .inl rfl

theorem Effect.noDeadlineMiss (e : Effect s i t) (h : NoDeadlineMiss s) : NoDeadlineMiss t := by
  rcases e.fault_cases with hsame | ⟨code, w, hcode, rfl⟩
  · exact noDeadlineMiss_of_fault_eq hsame h
  · exact noDeadlineMiss_raiseFault.2 hcode

theorem step_noDeadlineMiss (h : NoDeadlineMiss s) (hstep : step s = .next t) : NoDeadlineMiss t :=
  step_keeps (P := NoDeadlineMiss) (fun _ h => h) (fun _ _ _ e h => e.noDeadlineMiss h)
    (fun _ _ _ _ _ => noDeadlineMiss_raiseFault.2 (by decide)) h hstep

/-- Settles O46: the codes that operations and illegal words raise are the other five. -/
theorem nothingRaisesDeadlineMiss : Obligations.NothingRaisesDeadlineMiss :=
  ⟨fun q => noDeadlineMiss_of_noFault (resetWith_fault q),
    fun _ _ h => ⟨fun _ hexec => (exec_effect hexec).noDeadlineMiss h, step_noDeadlineMiss h⟩⟩

/-! ### The startup contract (10_state.md R28 to R30, 70_reset_and_hazards.md R231) -/

theorem reset_startupConsistent (q : Params) : StartupConsistent (State.resetWith q) :=
  ⟨iff_of_true rfl rfl, fun _ => ⟨rfl, rfl⟩, rfl⟩

/-- A move of the startup order that leaves the block outside Reset with its frame written keeps the contract, because
before Running nothing has ticked. -/
theorem startupConsistent_of_not_running (h : StartupConsistent s) (hl : s.life ≠ .running)
    (ht : t.transmitter = s.transmitter) (ho : t.out = s.out) (hd : t.dbg = s.dbg) (hreset : t.life ≠ .reset)
    (hframe : t.frame.isSome) : StartupConsistent t := by
  obtain ⟨-, hidle, hdbg⟩ := h
  have hwritten : t.frame ≠ none := Option.isSome_iff_ne_none.1 hframe
  exact ⟨iff_of_false hreset hwritten, fun _ => by rw [ht, ho]; exact hidle hl, by rw [hd, ho]; exact hdbg⟩

theorem frame_isSome_of_ne_reset (h : StartupConsistent s) (hl : s.life ≠ .reset) : s.frame.isSome := by
  obtain ⟨hframe, -, -⟩ := h
  exact Option.isSome_iff_ne_none.2 (mt hframe.2 hl)

/-- The four moves of the startup order keep the contract, and a tick mirrors the sample it writes. -/
theorem Effect.startupConsistent (e : Effect s i t) (h : StartupConsistent s) : StartupConsistent t := by
  have hframe := frame_isSome_of_ne_reset h
  cases e with
  | build _ hl => exact startupConsistent_of_not_running h (by simp [hl]) rfl rfl rfl nofun rfl
  | cfgSink _ hl => exact startupConsistent_of_not_running h (by simp [hl]) rfl rfl rfl nofun (hframe (by simp [hl]))
  | cfgTick _ hl => exact startupConsistent_of_not_running h (by simp [hl]) rfl rfl rfl nofun (hframe (by simp [hl]))
  | enable _ hl => exact startupConsistent_of_not_running h (by simp [hl]) rfl rfl rfl nofun (hframe (by simp [hl]))
  | tick _ hl =>
    obtain ⟨hwritten, -, -⟩ := h
    exact ⟨hwritten, fun hne => absurd hl hne, by simp [emitSample_eq]⟩
  | _ => exact h

theorem step_startupConsistent (h : StartupConsistent s) (hstep : step s = .next t) : StartupConsistent t :=
  step_keeps (P := StartupConsistent) (fun _ h => h) (fun _ _ _ e h => e.startupConsistent h)
    (fun _ _ _ _ h => h) h hstep

/-- Settles O42: every effect of an operation keeps the contract, and a taken word or an illegal one touches none of
its fields. -/
theorem stepKeepsTheStartupContract : Obligations.StepKeepsTheStartupContract :=
  fun _ _ _ h hstep => step_startupConsistent h hstep

/-! ### The stored frame (10_state.md R28, 41_frame_builder.md R128) -/

/-- Only BUILD in Reset writes the frame store. -/
theorem Effect.frame_eq (e : Effect s i t) (hl : s.life ≠ .reset) : t.frame = s.frame := by
  cases e with
  | build _ hreset => exact absurd hreset hl
  | _ => rfl

theorem ne_reset_of_frame {f : Frame} (h : StartupConsistent s) (hf : s.frame = some f) : s.life ≠ .reset := by
  obtain ⟨hframe, -, -⟩ := h
  rw [ne_eq, hframe, hf]; nofun

/-- Settles O24: where a frame is written the contract excludes Reset, so no operation writes it again. -/
theorem writtenFrameNeverChanges : Obligations.WrittenFrameNeverChanges := by
  intro s t f _ h hf hstep
  have hkept : StartupConsistent t ∧ t.frame = some f :=
    step_keeps (P := fun s => StartupConsistent s ∧ s.frame = some f) (fun _ h => h)
      (fun _ _ _ e ⟨hs, hf⟩ => ⟨e.startupConsistent hs, (e.frame_eq (ne_reset_of_frame hs hf)).trans hf⟩)
      (fun _ _ _ _ h => h) ⟨h, hf⟩ hstep
  exact hkept.2

/-- The low 12 bits of the AircraftId are the frame elements 46 to 57. -/
theorem frameField_aircraftId_low (f : Frame) : frameField f 46 12 = (frameField f 34 24).setWidth 12 := by
  refine BitVec.eq_of_getLsbD_eq fun i hi => ?_
  have hi' : i < 24 := by omega
  simp [frameField, hi, hi']

theorem frameShaped_buildFrame (g : Nat) (cc : BitVec 10) (aid : BitVec 24) (pos : BitVec 21) (off : BitVec 20) :
    FrameShaped g (buildFrame g cc aid pos off) := by
  obtain ⟨hsync, hframeSync, -, haid, hpos, -, hpositionParity, hidParity⟩ := frameField_buildFrame g cc aid pos off
  refine ⟨hsync, hframeSync, by rw [hpositionParity, hpos], ?_⟩
  rw [frameField_aircraftId_low, haid]; exact hidParity

theorem reset_storedFrameShaped (q : Params) : StoredFrameShaped (State.resetWith q) := fun _ hf => nomatch hf

/-- BUILD stores the builder's frame for the block's own polynomial; nothing else writes the frame or the
polynomial. -/
theorem Effect.storedFrameShaped (e : Effect s i t) (h : StoredFrameShaped s) : StoredFrameShaped t := by
  cases e with
  | build =>
    intro f hf
    cases hf
    exact frameShaped_buildFrame _ _ _ _ _
  | _ => exact h

/-- Settles O23: BUILD's frame has the shape whatever the operands, and every other effect leaves frame and
polynomial. -/
theorem stepKeepsTheStoredFrameShaped : Obligations.StepKeepsTheStoredFrameShaped :=
  fun _ _ _ h hstep => step_keeps (P := StoredFrameShaped) (fun _ h => h) (fun _ _ _ e h => e.storedFrameShaped h)
    (fun _ _ _ _ h => h) h hstep

/-! ### The sink calls (43_control_interface.md R184, 42_sample_scheduler.md R140) -/

theorem carrierRead_lt {q : Params} (hq : ParamsValid q) {p : Nat} {v : Sample} (h : carrierRead q p = some v) :
    v < 2 ^ q.sampleWidth := by
  obtain ⟨-, -, -, -, hcarrier, -⟩ := hq
  exact hcarrier v (Vector.mem_toList_iff.2 (Vector.mem_of_getElem? h))

theorem symbolRead_lt {q : Params} (hq : ParamsValid q) {b : Bool} {p : Nat} {v : Sample}
    (h : symbolRead q b p = some v) : v < 2 ^ q.sampleWidth := by
  obtain ⟨-, -, -, -, -, hsymbol⟩ := hq
  obtain ⟨row, hrow, hv⟩ := symbolRead_eq_some h
  exact hsymbol row (Vector.mem_toList_iff.2 (Vector.mem_of_getElem? hrow)) v
    (Vector.mem_toList_iff.2 (Vector.mem_of_getElem? hv))

/-- A selected sample is an entry of a waveform table (42_sample_scheduler.md R143, R144). -/
theorem selectSample_cases {v : Sample} (h : selectSample s = .ok v) :
    (∃ p, carrierRead s.params p = some v) ∨ ∃ b p, symbolRead s.params b p = some v := by
  cases hp : s.transmitter.macroPhase with
  | preamble => exact .inl ⟨_, orRomFault_eq_ok.1 ((selectSample_preamble hp).symm.trans h)⟩
  | data =>
    cases hb : currentBit s with
    | ok b => exact .inr ⟨b, _, orRomFault_eq_ok.1 (by simpa [selectSample, hp, hb] using h)⟩
    | error e => simp [selectSample, hp, hb] at h

theorem selectSample_lt (hq : ParamsValid s.params) {v : Sample} (h : selectSample s = .ok v) :
    v < 2 ^ s.params.sampleWidth := by
  rcases selectSample_cases h with ⟨p, hv⟩ | ⟨b, p, hv⟩
  · exact carrierRead_lt hq hv
  · exact symbolRead_lt hq hv

/-- Only a tick calls the sink, with SAMPLE_WIDTH and a table entry. -/
theorem Effect.sinkCallsInWidth (e : Effect s i t) (h : SinkCallsInWidth s) : SinkCallsInWidth t := by
  cases e with
  | tick _ _ hv =>
    obtain ⟨hq, hcalls⟩ := h
    refine ⟨hq, fun c hc => ?_⟩
    rcases List.mem_append.1 hc with hc | hc
    · exact hcalls c hc
    · rw [List.mem_singleton.1 hc]
      exact ⟨rfl, selectSample_lt hq hv⟩
  | _ => exact h

/-- Settles O44: the one new call of a step is a tick's, and every table entry is of SAMPLE_WIDTH bits. -/
theorem stepKeepsSinkCallsInWidth : Obligations.StepKeepsSinkCallsInWidth :=
  fun _ _ _ h hstep => step_keeps (P := SinkCallsInWidth) (fun _ h => h) (fun _ _ _ e h => e.sinkCallsInWidth h)
    (fun _ _ _ _ h => h) h hstep

/-! ### The fault records (60_exceptions.md R201) -/

theorem reset_faultRecordMatches (q : Params) : FaultRecordMatches (State.resetWith q) := fun _ hr => nomatch hr

theorem faultRecordMatches_raiseFault {code : FaultCode} {w : Word} (h : recordMatches ⟨code, w⟩) :
    FaultRecordMatches (s.raiseFault code w) := by
  intro r hr
  cases hr
  exact h

/-- Each operation that raises a fault records its own word, which decodes to the operation with its operands reduced
to their fields. -/
theorem Effect.faultRecordMatches (e : Effect s i t) (h : FaultRecordMatches s) : FaultRecordMatches t := by
  cases e with
  | buildFault => exact faultRecordMatches_raiseFault (.inl ⟨_, _, _, _, decode_encode (.build _ _ _ _)⟩)
  | cfgSinkFault => exact faultRecordMatches_raiseFault (.inr (.inl (decode_encode .cfgSink)))
  | cfgTickFault => exact faultRecordMatches_raiseFault (.inr (.inr (.inl ⟨_, decode_encode (.cfgTick _)⟩)))
  | cfgTickRate _ _ hr =>
    exact faultRecordMatches_raiseFault ⟨_, decode_encode (.cfgTick _), (tickRate_toNat _).symm.trans_ne hr⟩
  | enableFault => exact faultRecordMatches_raiseFault (.inr (.inr (.inr (decode_encode .enable))))
  | dbgReadFault => exact faultRecordMatches_raiseFault (decode_encode .dbgRead)
  | tickFault => exact faultRecordMatches_raiseFault (decode_encode .tick)
  | _ => exact h

/-- Settles O45: an operation records the word that decodes to it, an illegal word records itself, and neither has the
code DEADLINE_MISS. -/
theorem stepKeepsFaultRecordsTrue : Obligations.StepKeepsFaultRecordsTrue :=
  fun _ _ _ h hstep => step_keeps (P := FaultRecordMatches) (fun _ h => h) (fun _ _ _ e h => e.faultRecordMatches h)
    (fun _ _ why hd _ => faultRecordMatches_raiseFault ⟨why, hd⟩) h hstep

/-! ### The state after reset (70_reset_and_hazards.md R230) -/

/-- The reset configuration reduces every table entry to SAMPLE_WIDTH bits. -/
theorem config_paramsValid : ParamsValid Config.params := by
  have hcarrier (p : Nat) : Config.carrierSample p < 2 ^ Config.sampleWidth := Nat.mod_lt _ (Nat.two_pow_pos _)
  have hsymbol (b p : Nat) : Config.symbolSample b p < 2 ^ Config.sampleWidth := Nat.mod_lt _ (Nat.two_pow_pos _)
  refine ⟨by decide, by decide, by decide, Nat.succ_pos _, ?_, ?_⟩
  · simp [Config.params, hcarrier]
  · refine List.forall_mem_cons.2 ⟨?_, List.forall_mem_cons.2 ⟨?_, List.forall_mem_nil _⟩⟩
    · simp [Config.params, hsymbol]
    · simp [Config.params, hsymbol]

/-- Settles O47: each invariant at reset, where no tick has run, no frame and no fault is stored and no word was
taken. -/
theorem resetMeetsTheInvariants : Obligations.ResetMeetsTheInvariants :=
  ⟨fun q => ⟨reset_transmitterInRange q, rfl, reset_startupConsistent q, reset_outputClosedForm q,
    reset_storedFrameShaped q, noDeadlineMiss_of_noFault (resetWith_fault q), reset_faultRecordMatches q,
    fun hq => ⟨hq, fun _ hc => nomatch hc⟩⟩, config_paramsValid⟩

end Sys2Proof.Machine
end

section
/-! PROOFS. What a step runs and when it is refused (20_memory.md R58, 40_bch_encoder.md R107, 42_sample_scheduler.md
R149), what each operation leaves unchanged (10_state.md section 1), and the startup order (70_reset_and_hazards.md
R232). -/

namespace Sys2Proof.Machine

variable {s : State}

/-! ### The word a step takes (20_memory.md R58, 43_control_interface.md R185) -/

theorem dropWord_of_pending {w : Word} {ws : List Word} (h : s.pending = w :: ws) :
    s.dropWord = { s with pending := ws } := by simp [State.dropWord, h]

theorem dropWord_of_empty (h : s.pending = []) : s.dropWord = s := by
  cases s; cases h; rfl

/-- Settles O8: the next word is the first pending one, else the tick source's TICK in Running, else none. -/
theorem stepRunsTheDecodedOperation : Obligations.StepRunsTheDecodedOperation := by
  refine ⟨fun s w ws i _ hconfig hp hd => ?_, fun s _ hconfig hp hl => ?_, fun s _ hconfig hp hl => ?_⟩
  · rw [step_of_op (configRefusal_eq_none.2 hconfig) (nextWord_of_pending hp) hd, dropWord_of_pending hp]
  · have hnext : s.nextWord = some (encode .tick) := by rw [nextWord_of_empty hp, if_pos hl]
    have hd : decode (encode .tick) = .op .tick := decode_encode .tick
    rw [step_of_op (configRefusal_eq_none.2 hconfig) hnext hd, dropWord_of_empty hp]
  · have hnext : s.nextWord = none := by rw [nextWord_of_empty hp, if_neg hl]
    exact step_of_noWord hconfig hnext

/-! ### Refusals (40_bch_encoder.md R107, 42_sample_scheduler.md R149) -/

theorem exec_ne_refused (i : Instr) (s : State) (r : Refusal) : exec i s ≠ .refused r := by
  cases hfault : s.fault with
  | some _ => rw [exec_of_fault hfault]; nofun
  | none =>
    cases i with
    | encPos d => rw [execEncPos_of_none hfault]; nofun
    | encId d => rw [execEncId_of_none hfault]; nofun
    | build cc aid pos off => rw [execBuild_of_none hfault]; split <;> nofun
    | cfgSink => rw [execCfgSink_of_none hfault]; split <;> nofun
    | cfgTick rate => rw [execCfgTick_of_none hfault]; split_ifs <;> nofun
    | enable => rw [execEnable_of_none hfault]; split <;> nofun
    | tick =>
      by_cases hl : s.life = .running
      · cases hv : selectSample s with
        | ok v => rw [execTick_of_sample hfault hl hv]; nofun
        | error e => rw [execTick_of_error hfault hl hv]; nofun
      · rw [execTick_of_notRunning hfault hl]; nofun
    | dbgRead =>
      cases hd : s.dbg with
      | some v => rw [execDbgRead_of_value hfault hd]; nofun
      | none => rw [execDbgRead_of_noValue hfault hd]; nofun

/-- A step is refused for its configuration only. -/
theorem step_eq_refused_iff {r : Refusal} : step s = .refused r ↔ configRefusal s.params = some r := by
  cases hc : configRefusal s.params with
  | some r' => simp [step, hc]
  | none =>
    refine iff_of_false ?_ nofun
    cases hw : s.nextWord with
    | none => rw [step_of_noWord (configRefusal_eq_none.1 hc) hw]; nofun
    | some w =>
      cases hd : decode w with
      | op i => rw [step_of_op hc hw hd]; exact exec_ne_refused i s.dropWord r
      | illegal why =>
        obtain ⟨t, ht⟩ := illegalCommand_completes w s.dropWord
        rw [step_of_illegal hc hw hd, ht]; nofun

/-- Settles O9: no operation and no illegal word is refused, so the refusals are the configuration's. -/
theorem onlyBadConfigurationsAreRefused : Obligations.OnlyBadConfigurationsAreRefused := by
  intro s _
  simp only [step_eq_refused_iff, ← Option.ne_none_iff_exists', ne_eq, configRefusal_eq_none]
  omega

/-! ### The frame of each operation (10_state.md section 1) -/

/-- A tick writes the scheduler's registers, the output and the mirror, or the fault register alone. -/
theorem execTick_frame {t : State} (h : exec .tick s = .next t) :
    t = { s with transmitter := t.transmitter, out := t.out, dbg := t.dbg } ∨ t = { s with fault := t.fault } := by
  cases exec_effect h with
  | faulted | tick => exact .inl rfl
  | tickFault => exact .inr rfl

/-- Settles O39: each operation's own effects, the updates they are made of read field by field. -/
theorem operationsLeaveEverythingElse : Obligations.OperationsLeaveEverythingElse := by
  intro s t _
  refine ⟨fun d h => ?_, fun d h => ?_, fun h => ?_, fun h => ?_, fun rate h => ?_, fun h => ?_,
    fun cc aid pos off h => ?_, execTick_frame⟩
  all_goals cases exec_effect h <;> rfl

/-! ### The startup order (70_reset_and_hazards.md R232) -/

/-- Settles O30: each operation finds the lifecycle state that the one before it left. -/
theorem startupOrderReachesRunning : Obligations.StartupOrderReachesRunning := by
  intro cc aid pos off s hfault hl
  exact ⟨_, _, _, _, _, execBuild_of_reset hfault hl cc aid pos off, execCfgSink_of_built hfault rfl,
    execCfgTick_of_rate hfault rfl (tickRate_toNat_of_lt (by decide)), execEnable_of_tickConfigured hfault rfl, rfl⟩

/-- Settles O32: outside Running the tick writes the fault register only, with its own word. -/
theorem tickBeforeEnableFaults : Obligations.TickBeforeEnableFaults :=
  fun _ hfault hl => execTick_of_notRunning hfault hl

/-! ### The carrier over runs of ticks (42_sample_scheduler.md R152) -/

theorem iterate_advance_carrierPosition_toNat {q : Params} {t : TransmitterState} (h : t.carrierPosition.toNat ≤ 4)
    (n : Nat) : ((advance q)^[n] t).carrierPosition.toNat = (t.carrierPosition.toNat + n) % 5 := by
  induction n with
  | zero => exact (Nat.mod_eq_of_lt (Nat.lt_succ_of_le h)).symm
  | succ n ih => rw [Function.iterate_succ_apply', advance_carrierPosition_toNat, ih]; omega

/-- Settles O37: both budgets are multiples of the 5 carrier positions. -/
theorem carrierReturnsAtEveryBoundary : Obligations.CarrierReturnsAtEveryBoundary := by
  intro s n _ h
  have hcount := iterate_advance_carrierPosition_toNat (q := s.params) h n
  exact ⟨hcount, fun hn => BitVec.eq_of_toNat_eq (by omega)⟩

end Sys2Proof.Machine
end

section
/-! PROOFS. The parity and the textbook remainder (40_bch_encoder.md R103, R105). -/

namespace Sys2Proof.Machine

open Polynomial

variable {g : Nat}

theorem encodePositionParity_eq_add (hbit : g.testBit 10 = true) (d : BitVec 21) :
    polynomialOf 10 (encodePositionParity g d).toNat =
      (X ^ 10 * polynomialOf 21 d.toNat) %ₘ polynomialOf 11 g + polynomialOf 21 d.toNat %ₘ polynomialOf 11 g := by
  rw [encodePositionParity_closedForm hbit, add_mul, one_mul, add_modByMonic]

/-- Modulo `g` the word Position‖PositionParity is `d`: the closed form's `x^10·d` cancels the Position's own. -/
theorem genPoly_dvd_transmitted_sub (hbit : g.testBit 10 = true) (d : BitVec 21) :
    polynomialOf 11 g ∣
      X ^ 10 * polynomialOf 21 d.toNat + polynomialOf 10 (encodePositionParity g d).toNat -
        polynomialOf 21 d.toNat := by
  have hdvd := dvd_modByMonic_sub ((X ^ 10 + 1) * polynomialOf 21 d.toNat) (polynomialOf 11 g)
  rw [← encodePositionParity_closedForm hbit] at hdvd
  simp only [CharTwo.sub_eq_add] at hdvd ⊢
  convert hdvd using 1
  ring

/-- Settles O18: the closed form splits along `x^10 + 1`, and modulo `g` the transmitted word is `d`. -/
theorem transmittedBitsAreACodewordOnlyIfGDividesD : Obligations.TransmittedBitsAreACodewordOnlyIfGDividesD :=
  fun _ d hlo hhi =>
    have hbit := testBit_ten_of_genPoly hlo hhi
    ⟨encodePositionParity_eq_add hbit d, dvd_iff_dvd_of_dvd_sub (genPoly_dvd_transmitted_sub hbit d)⟩

end Sys2Proof.Machine
end
